-- ==== Sys2Proof/Word.lean ====
section
/-! DEFINITION. The word types of the block: 8-bit bytes (00_scope.md R5 row BYTE, R6) and the 64-bit host
command word (30_encoding.md R69). Bits are numbered from 0, least significant (R6), as BitVec numbers them. -/

namespace Sys2Proof

/-- One byte: a read buffer slot, a transfer, a register (R5 row BYTE). -/
abbrev Byte := BitVec 8

/-- One host command word, level H (R69). -/
abbrev HostWord := BitVec 64

/-- A chip register address: 5 bits, 0..31 (R5 row ADDR_BITS, decision D5). -/
abbrev RegAddr := BitVec 5

/-- A bit position in a byte, 0..7 (R6, R25). -/
abbrev BitPos := BitVec 3

end Sys2Proof
end

