-- ==== Sys2Proof/Config.lean ====
section
/-! DEFINITION. What a build of the block fixes (00_scope.md R5, 10_state.md R25), and the free values: opaque
constants of which nothing can be proved (log 9, 10, 11). -/

namespace Sys2Proof

/-- The chip map (10_state.md R25): the five register addresses and nine bit positions the block needs and the
document only names. Every address is below 32 and every position below 8 by type. -/
structure ChipMap where
  /-- ADDR_CONFIG (R20) -/
  addrConfig : RegAddr
  /-- ADDR_EN_RXADDR (R23) -/
  addrEnRxaddr : RegAddr
  /-- ADDR_RF_SETUP (R22) -/
  addrRfSetup : RegAddr
  /-- ADDR_STATUS (R21) -/
  addrStatus : RegAddr
  /-- ADDR_RX_PW_P0 (R24) -/
  addrRxPwP0 : RegAddr
  /-- BIT_PRIM_RX of CONFIG (R20) -/
  bitPrimRx : BitPos
  /-- BIT_PWR_UP of CONFIG (R20) -/
  bitPwrUp : BitPos
  /-- BIT_CRCO of CONFIG (R20, decision D17) -/
  bitCrco : BitPos
  /-- BIT_EN_CRC of CONFIG (R20, decision D17) -/
  bitEnCrc : BitPos
  /-- BIT_RF_DR_HIGH of RF_SETUP (R22) -/
  bitRfDrHigh : BitPos
  /-- BIT_RF_DR_LOW of RF_SETUP (R22) -/
  bitRfDrLow : BitPos
  /-- BIT_MAX_RT of STATUS (R21) -/
  bitMaxRt : BitPos
  /-- BIT_TX_DS of STATUS (R21) -/
  bitTxDs : BitPos
  /-- BIT_RX_DR of STATUS (R21) -/
  bitRxDr : BitPos
deriving DecidableEq, Repr

/-- Well-formedness of a chip map (10_state.md R25): the four CONFIG positions pairwise distinct, the two RF_SETUP
positions distinct, the three STATUS positions pairwise distinct. -/
def ChipMap.wf (m : ChipMap) : Bool :=
  decide ([m.bitPrimRx, m.bitPwrUp, m.bitCrco, m.bitEnCrc].Nodup) &&
  decide (m.bitRfDrHigh ≠ m.bitRfDrLow) &&
  decide ([m.bitMaxRt, m.bitTxDs, m.bitRxDr].Nodup)

/-- The GK default of R5 (10_state.md R25). PRESUMED (log 5): every number is general knowledge of the chip. -/
def ChipMap.gkDefault : ChipMap where
  addrConfig := 0x00
  addrEnRxaddr := 0x02
  addrRfSetup := 0x06
  addrStatus := 0x07
  addrRxPwP0 := 0x11
  bitPrimRx := 0
  bitPwrUp := 1
  bitCrco := 2
  bitEnCrc := 3
  bitRfDrHigh := 3
  bitRfDrLow := 5
  bitMaxRt := 4
  bitTxDs := 5
  bitRxDr := 6

/-- The parameters of one build of the block (R5; "Open parameters in one list", 92_eei_decisions.md), and the wiring
of its two lines (10_state.md R18). The record stands in the state, no step writes it, and statements quantify over
it (log 4). -/
structure Config where
  /-- ChipMap (R25, decision D16) -/
  map : ChipMap
  /-- RD_CAPTURE_CMD: whether a read captures the reply to the command byte (decision D8, conflict C1) -/
  rdCaptureCmd : Bool
  /-- CHANNEL_CAN_FAULT: whether `transfer` may fail (R183, decision D15) -/
  channelCanFault : Bool
  /-- MAX_WR_LEN: the longest byte list of writeRegister (decision D7); at most the five data bytes of R69 (log 7) -/
  maxWrLen : Fin 6
  /-- CE_PULSE_DELAY_MS: the u32 argument given to `delay` in transmit (decision D13) -/
  cePulseDelayMs : BitVec 32
  /-- ce_line_id: which physical line CE is (R18); inert -/
  ceLineId : Nat
  /-- csn_line_id: which physical line CSN is (R18); inert -/
  csnLineId : Nat
deriving DecidableEq, Repr

namespace Config

/-- The defaults of R5; the line identifiers are a DESIGN CHOICE (log 4). -/
def standard : Config where
  map := ChipMap.gkDefault
  rdCaptureCmd := false
  channelCanFault := false
  maxWrLen := 5
  cePulseDelayMs := 1
  ceLineId := 0
  csnLineId := 1

/-- CE_PULSE_MIN_US: the floor of the CE high time in transmit, in microseconds (R5, 43_payload_io.md R144). -/
def cePulseMinUs : Nat := 10

/-- A configuration the spec allows: a well-formed chip map (R25) and a delay that meets the CE pulse floor
(R144, R217: `delay(ms)` returns after at least `ms` milliseconds). -/
def wf (c : Config) : Bool := c.map.wf && decide (cePulseMinUs ≤ c.cePulseDelayMs.toNat * 1000)

/-- RB_LEN: slots in the read buffer (R5). -/
def rbLen : Nat := 6

/-- MAX_RD_COUNT: the largest count of readRegister (R5, decision D6). -/
def maxRdCount : Nat := 5

/-- PAYLOAD_MIN: the shortest payload of transmit and receive (R5). -/
def payloadMin : Nat := 1

/-- PAYLOAD_MAX: the longest payload of transmit and receive (R5). -/
def payloadMax : Nat := 5

/-- CHIP_PAYLOAD_MAX: the chip's own payload limit; no rule of the block uses it (R5, conflict C4). -/
def chipPayloadMax : Nat := 32

/-- FIFO_DEPTH: the depth of each chip FIFO (R5); only the reference responders use it (20_memory.md R54). -/
def fifoDepth : Nat := 3

/-- DUMMY: the byte sent while reading (R5). -/
def dummy : Byte := 0x00

/-- FREE VALUE (log 9, 11). The `n`-th byte that nothing constrains: a reply of the unconstrained responder
(20_memory.md R53), a draw of a reference responder (R54, R55), an unspecified rsp.result (10_state.md R15, U7). -/
opaque freeByte : Nat → BitVec 8

/-- FREE VALUE (log 10). Whether the `n`-th transfer fails where CHANNEL_CAN_FAULT holds and nothing says which
transfers fail (60_exceptions.md R183). -/
opaque freeFails : Nat → Bool

end Config

end Sys2Proof
end

