-- ==== Sys2Proof/Syntax.lean ====
section
/-! DEFINITION. The instructions: one constructor per row of spec/opcode_table.json. The first sixteen are the host
commands of level H (30_encoding.md R70, R72); the last six are the transactions of level S (R61 to R67). -/

namespace Sys2Proof

/-- One instruction. A host command carries the operands its row of R70 reads and no other field (R73, log 21);
a level S transaction carries its address and what its emitter fixes: the data bytes, or the count of a read (R61). -/
inductive Instr where
  /-- WRITE_REGISTER (R100): `A`, `N`, and the list `[D0..D(N-1)]` (R71 b), five bytes when `N` is 6 or 7 -/
  | writeRegister (a : RegAddr) (n : BitVec 3) (data : List Byte)
  /-- READ_REGISTER (R101): `A`, `N` = count -/
  | readRegister (a : RegAddr) (n : BitVec 3)
  /-- SET_BIT (R102): `D0` = byteValue, `N` = bitIndex, `F1` = isSet -/
  | setBit (v : Byte) (n : BitPos) (isSet : Bool)
  /-- CONFIGURE (R120): `F1` = receiveEnabled, `F0` = powerUp -/
  | configure (rx : Bool) (pw : Bool)
  /-- ENTER_TX (R121) -/
  | enterTx
  /-- ENTER_RX (R122) -/
  | enterRx
  /-- SET_DATA_RATE (R123): `D0` = rate -/
  | setDataRate (rate : Byte)
  /-- CONFIGURE_PIPES (R124): `D0` = pipeMask, `D1` = fixedPayloadWidth -/
  | configurePipes (mask : Byte) (width : Byte)
  /-- TRANSMIT (R140): `N`, and the list `[D0..D(N-1)]`, five bytes when `N` is 6 or 7 -/
  | transmit (n : BitVec 3) (data : List Byte)
  /-- RECEIVE (R141): `N` = count -/
  | receive (n : BitVec 3)
  /-- FLUSH_TX (R142) -/
  | flushTx
  /-- FLUSH_RX (R143) -/
  | flushRx
  /-- RESPOND_IRQ (R160) -/
  | respondIrq
  /-- CLEAR_IRQ (R161) -/
  | clearIrq
  /-- RESERVED_E: operation number 0xE (R72) -/
  | reservedE
  /-- RESERVED_F: operation number 0xF (R72) -/
  | reservedF
  /-- OPC_R_REGISTER (R62): the address and the count of content bytes asked for -/
  | opcRRegister (a : RegAddr) (count : Fin 6)
  /-- OPC_W_REGISTER (R63): the address and the data bytes -/
  | opcWRegister (a : RegAddr) (data : List Byte)
  /-- OPC_W_TX_PAYLOAD (R64): the payload bytes -/
  | opcWTxPayload (data : List Byte)
  /-- OPC_R_RX_PAYLOAD (R65): the count of payload bytes asked for -/
  | opcRRxPayload (count : Fin 6)
  /-- OPC_FLUSH_TX (R66) -/
  | opcFlushTx
  /-- OPC_FLUSH_RX (R67) -/
  | opcFlushRx
deriving DecidableEq, Repr

/-- What a command byte says (30_encoding.md, level S format table): the six kinds of access (20_memory.md R40). -/
inductive BusCommand where
  | rRegister (a : RegAddr)
  | wRegister (a : RegAddr)
  | wTxPayload
  | rRxPayload
  | flushTx
  | flushRx
deriving DecidableEq, Repr

/-- What is presented to the block to run next: a host command word (R69), or the bytes of one level S transaction,
from its command byte to the last byte before `CSN(High)` (R61; log 15). -/
inductive Request where
  | host (w : HostWord)
  | bus (frame : List Byte)
deriving DecidableEq, Repr

/-- Why bytes are no level S transaction of the block (R61, R68). A host word is never rejected (R72). -/
inductive DecodeError where
  /-- a transaction has at least its command byte (R61) -/
  | emptyFrame
  /-- a byte the block never emits as a command byte (R68) -/
  | notACommandByte (b : Byte)
  /-- a number of bytes after the command byte that no operation emits (R75) -/
  | badLength
  /-- a read sends dummy bytes 0x00 only (R101, R141) -/
  | dummyNotZero
deriving DecidableEq, Repr

end Sys2Proof
end

