-- ==== Sys2Proof/WellFormed.lean ====
section
/-! DEFINITION. Which terms of Instr the encodings of 30_encoding.md can spell. -/

namespace Sys2Proof

/-- The number of data bytes a host word gives a list operand: `N`, and no more than the five data fields `D0` to
`D4` of R69 (for `N` = 6 or 7 the command is rejected whatever they hold, R73). -/
def dataLen (n : BitVec 3) : Nat := min n.toNat 5

/-- The well-formed instructions. Level H: a list operand has the length its `N` field says (R71 b). Level S: the
lengths of R75 (W_REGISTER 0 to 5 data bytes, W_TX_PAYLOAD 1 to 5, R_RX_PAYLOAD a count of 1 to 5). -/
def Instr.wf : Instr → Bool
  | .writeRegister _ n data => data.length == dataLen n
  | .readRegister _ _ => true
  | .setBit _ _ _ => true
  | .configure _ _ => true
  | .enterTx => true
  | .enterRx => true
  | .setDataRate _ => true
  | .configurePipes _ _ => true
  | .transmit n data => data.length == dataLen n
  | .receive _ => true
  | .flushTx => true
  | .flushRx => true
  | .respondIrq => true
  | .clearIrq => true
  | .reservedE => true
  | .reservedF => true
  | .opcRRegister _ _ => true
  | .opcWRegister _ data => decide (data.length ≤ 5)
  | .opcWTxPayload data => decide (Config.payloadMin ≤ data.length) && decide (data.length ≤ Config.payloadMax)
  | .opcRRxPayload count => decide (Config.payloadMin ≤ count.val)
  | .opcFlushTx => true
  | .opcFlushRx => true

end Sys2Proof
end

