-- ==== Sys2Proof/Decode.lean ====
section
/-! DEFINITION. Decoding at both levels (30_encoding.md): total, from a host word (R69 to R73) or from the bytes of a
transaction (R61 to R68, R75), rejecting by name; then the encoder, from the same tables. -/

namespace Sys2Proof

/-! ## Level H: the fields of a host word (R69) -/

/-- `OP`, bits 63:60. -/
def HostWord.op (w : HostWord) : BitVec 4 := w.extractLsb' 60 4

/-- `N`, bits 58:56. -/
def HostWord.n (w : HostWord) : BitVec 3 := w.extractLsb' 56 3

/-- `A`, bits 52:48. -/
def HostWord.a (w : HostWord) : RegAddr := w.extractLsb' 48 5

/-- `F1`, bit 41: isSet or receiveEnabled. -/
def HostWord.f1 (w : HostWord) : Bool := w.getLsbD 41

/-- `F0`, bit 40: powerUp. -/
def HostWord.f0 (w : HostWord) : Bool := w.getLsbD 40

/-- `D0`, bits 7:0, the first byte on the bus. -/
def HostWord.d0 (w : HostWord) : Byte := w.extractLsb' 0 8

/-- `D1`, bits 15:8. -/
def HostWord.d1 (w : HostWord) : Byte := w.extractLsb' 8 8

/-- `D2`, bits 23:16. -/
def HostWord.d2 (w : HostWord) : Byte := w.extractLsb' 16 8

/-- `D3`, bits 31:24. -/
def HostWord.d3 (w : HostWord) : Byte := w.extractLsb' 24 8

/-- `D4`, bits 39:32. -/
def HostWord.d4 (w : HostWord) : Byte := w.extractLsb' 32 8

/-- The list operand `[D0, D1, ..., D(N-1)]` (R71 b); at most the five data fields. -/
def HostWord.bytes (w : HostWord) : List Byte := [w.d0, w.d1, w.d2, w.d3, w.d4].take w.n.toNat

/-- Decoding a host word (R70, R71): every word is some instruction (R72). -/
def decodeHost (w : HostWord) : Instr :=
  match w.op.toNat with
  | 0x0 => .writeRegister w.a w.n w.bytes
  | 0x1 => .readRegister w.a w.n
  | 0x2 => .setBit w.d0 w.n w.f1
  | 0x3 => .configure w.f1 w.f0
  | 0x4 => .enterTx
  | 0x5 => .enterRx
  | 0x6 => .setDataRate w.d0
  | 0x7 => .configurePipes w.d0 w.d1
  | 0x8 => .transmit w.n w.bytes
  | 0x9 => .receive w.n
  | 0xA => .flushTx
  | 0xB => .flushRx
  | 0xC => .respondIrq
  | 0xD => .clearIrq
  | 0xE => .reservedE
  | _ => .reservedF

/-! ## Level S: command bytes and transactions -/

/-- Reading a command byte (30_encoding.md, level S format table; R62 to R67): bits 7:5 are 000 for R_REGISTER and
001 for W_REGISTER, and the four other command bytes are fixed. Every other byte is none of the block's (R68). -/
def busCommand (b : Byte) : Option BusCommand :=
  if b.extractLsb' 5 3 = 0b000#3 then some (.rRegister (b.extractLsb' 0 5))
  else if b.extractLsb' 5 3 = 0b001#3 then some (.wRegister (b.extractLsb' 0 5))
  else if b = 0xA0#8 then some .wTxPayload
  else if b = 0x61#8 then some .rRxPayload
  else if b = 0xE1#8 then some .flushTx
  else if b = 0xE2#8 then some .flushRx
  else none

/-- The count of a read, from its dummy bytes: `count + 1` of them, or `count` if the reply to the command byte is
captured (R75). -/
def readCount (capture : Bool) (body : List Byte) : Except DecodeError (Fin 6) :=
  if body.all (· == Config.dummy) then
    match capture, body.length with
    | true, n => if h : n < 6 then .ok ⟨n, h⟩ else .error .badLength
    | false, 0 => .error .badLength
    | false, n + 1 => if h : n < 6 then .ok ⟨n, h⟩ else .error .badLength
  else .error .dummyNotZero

/-- Decoding the bytes of one transaction: the command byte, then what R75 allows after it. -/
def decodeFrame (capture : Bool) : List Byte → Except DecodeError Instr
  | [] => .error .emptyFrame
  | b :: body =>
    match busCommand b with
    | none => .error (.notACommandByte b)
    | some (.rRegister a) => (readCount capture body).map (Instr.opcRRegister a)
    | some (.wRegister a) => if body.length ≤ 5 then .ok (.opcWRegister a body) else .error .badLength
    | some .wTxPayload =>
      if 1 ≤ body.length ∧ body.length ≤ 5 then .ok (.opcWTxPayload body) else .error .badLength
    | some .rRxPayload =>
      match readCount capture body with
      | .ok count => if 1 ≤ count.val then .ok (.opcRRxPayload count) else .error .badLength
      | .error e => .error e
    | some .flushTx => if body = [] then .ok .opcFlushTx else .error .badLength
    | some .flushRx => if body = [] then .ok .opcFlushRx else .error .badLength

/-- Decoding what is presented to the block. Only the number of dummy bytes of a read depends on the build. -/
def decode (cfg : Config) : Request → Except DecodeError Instr
  | .host w => .ok (decodeHost w)
  | .bus frame => decodeFrame cfg.rdCaptureCmd frame

/-! ## The encoder -/

/-- A host word from its fields, every unused bit 0 (R69). -/
def packHost (op : BitVec 4) (n : BitVec 3) (a : RegAddr) (f1 f0 : Bool) (d4 d3 d2 d1 d0 : Byte) : HostWord :=
  op ++ 0#1 ++ n ++ 0#3 ++ a ++ 0#6 ++ BitVec.ofBool f1 ++ BitVec.ofBool f0 ++ d4 ++ d3 ++ d2 ++ d1 ++ d0

/-- A host word whose data fields hold a list operand, `D0` first, fields beyond the list 0 (R71 b). -/
def packBytes (op : BitVec 4) (n : BitVec 3) (a : RegAddr) (data : List Byte) : HostWord :=
  packHost op n a false false (data.getD 4 0) (data.getD 3 0) (data.getD 2 0) (data.getD 1 0) (data.getD 0 0)

/-- The command byte of a level S transaction (R62 to R67). -/
def BusCommand.byte : BusCommand → Byte
  | .rRegister a => a.setWidth 8
  | .wRegister a => 0x20#8 ||| a.setWidth 8
  | .wTxPayload => 0xA0
  | .rRxPayload => 0x61
  | .flushTx => 0xE1
  | .flushRx => 0xE2

/-- The dummy bytes of a read: `count + 1`, or `count` if the reply to the command byte is captured (R61, R75). -/
def dummies (capture : Bool) (count : Nat) : List Byte :=
  List.replicate (if capture then count else count + 1) Config.dummy

/-- The words of an instruction: a host word with every field it does not read 0, or the bytes of a transaction. -/
def encode (cfg : Config) : Instr → Request
  | .writeRegister a n data => .host (packBytes 0x0 n a data)
  | .readRegister a n => .host (packHost 0x1 n a false false 0 0 0 0 0)
  | .setBit v n isSet => .host (packHost 0x2 n 0 isSet false 0 0 0 0 v)
  | .configure rx pw => .host (packHost 0x3 0 0 rx pw 0 0 0 0 0)
  | .enterTx => .host (packHost 0x4 0 0 false false 0 0 0 0 0)
  | .enterRx => .host (packHost 0x5 0 0 false false 0 0 0 0 0)
  | .setDataRate rate => .host (packHost 0x6 0 0 false false 0 0 0 0 rate)
  | .configurePipes mask width => .host (packHost 0x7 0 0 false false 0 0 0 width mask)
  | .transmit n data => .host (packBytes 0x8 n 0 data)
  | .receive n => .host (packHost 0x9 n 0 false false 0 0 0 0 0)
  | .flushTx => .host (packHost 0xA 0 0 false false 0 0 0 0 0)
  | .flushRx => .host (packHost 0xB 0 0 false false 0 0 0 0 0)
  | .respondIrq => .host (packHost 0xC 0 0 false false 0 0 0 0 0)
  | .clearIrq => .host (packHost 0xD 0 0 false false 0 0 0 0 0)
  | .reservedE => .host (packHost 0xE 0 0 false false 0 0 0 0 0)
  | .reservedF => .host (packHost 0xF 0 0 false false 0 0 0 0 0)
  | .opcRRegister a count => .bus ((BusCommand.rRegister a).byte :: dummies cfg.rdCaptureCmd count)
  | .opcWRegister a data => .bus ((BusCommand.wRegister a).byte :: data)
  | .opcWTxPayload data => .bus (BusCommand.wTxPayload.byte :: data)
  | .opcRRxPayload count => .bus (BusCommand.rRxPayload.byte :: dummies cfg.rdCaptureCmd count)
  | .opcFlushTx => .bus [BusCommand.flushTx.byte]
  | .opcFlushRx => .bus [BusCommand.flushRx.byte]

/-! ## Words of the opcode table -/

/-- The shortest transaction with a given command byte (R75), its data bytes 0 (log 16): no data byte for a register
write, one payload byte, a count of 0 for a register read and of 1 for a payload read. -/
def shortestFrame (capture : Bool) (b : Byte) : List Byte :=
  b :: match busCommand b with
    | some (.rRegister _) => dummies capture 0
    | some .wTxPayload => [0]
    | some .rRxPayload => dummies capture 1
    | some (.wRegister _) => []
    | some .flushTx => []
    | some .flushRx => []
    | none => []

/-- A word of spec/opcode_table.json as it is presented: a row of 8 bits is a command byte, a row of 64 bits a host
word. -/
def tableRequest (capture : Bool) (nbits w : Nat) : Request :=
  if nbits ≤ 8 then .bus (shortestFrame capture (BitVec.ofNat 8 w)) else .host (BitVec.ofNat 64 w)

/-- The instruction the decoder reads from a table word, at the default configuration. -/
def decodeTableWord (nbits w : Nat) : Option Instr :=
  (decode Config.standard (tableRequest Config.standard.rdCaptureCmd nbits w)).toOption

end Sys2Proof
end

