-- ==== Sys2Proof/Machine/State.lean ====
section
/-! DEFINITION. The state of the machine as plain data (10_state.md R10 to R18), the environment it talks to
(20_memory.md R53 to R55), the reasons a step can stop, and the state after reset (10_state.md R31). -/

namespace Sys2Proof.Machine

/-! ## Lines, events and the sequencer -/

/-- A line level (00_scope.md R7). -/
inductive Level where
  | low
  | high
deriving DecidableEq, Repr

/-- The two control lines (R7). -/
inductive Line where
  | ce
  | csn
deriving DecidableEq, Repr

/-- The event alphabet of a trace (00_scope.md R8): `CSN(v)`, `CE(v)`, `XFER(mosi, miso)`, `DELAY(ms)`. -/
inductive Event where
  | line (l : Line) (v : Level)
  | xfer (mosi miso : Byte)
  | delay (ms : BitVec 32)
deriving DecidableEq, Repr

/-- Where a byte that is sent comes from: it is fixed when the command is accepted, or it is the RF_SETUP byte
setDataRate computes from `RB[1]` when the byte is due (42_mode_controller.md R123). -/
inductive ByteSource where
  | const (b : Byte)
  | rate (lo hi : Bool)
deriving DecidableEq, Repr

/-- The primitives the rules of files 40 to 44 are written with (00_scope.md R7): the three collaborator calls, a
transfer with the read buffer slot its reply goes to (if any), and `x <- v` for the two elements written mid-command. -/
inductive Action where
  /-- `SetLine(l, v)` -/
  | setLine (l : Line) (v : Level)
  /-- `_ <- Xfer(src)`, or `RB[slot] <- Xfer(src)` -/
  | xfer (src : ByteSource) (slot : Option (Fin 6))
  /-- `Delay(ms)` -/
  | delay (ms : BitVec 32)
  /-- `payload_width <- w` (R124) -/
  | setPayloadWidth (w : Byte)
  /-- ghost `last_cfg <- (rx, pw)` (R120) -/
  | setLastCfg (rx pw : Bool)
deriving DecidableEq, Repr

/-- How a command that ran to its last action ends: what its `return` writes into `rsp` (10_state.md R15). -/
inductive Finish where
  /-- `return`: code 0, result unspecified -/
  | ok
  /-- `return v`: code 0 and that byte (setBit) -/
  | okByte (v : Byte)
  /-- `return RB[slot]`: code 0 and that slot (respondToInterrupt) -/
  | okSlot (slot : Fin 6)
  /-- the end of a transaction presented by itself: no response (log 15) -/
  | bus
  /-- `raise ChannelFault` after the clean-up (60_exceptions.md R183) -/
  | channelFault
deriving DecidableEq, Repr

/-- The sequencer position (10_state.md R14): `Idle`, or the latched command, the number `k` of events of its trace
already emitted, the actions still to run, and how the command ends (log 13). -/
inductive Seq where
  | idle
  | running (cmd : Instr) (k : Nat) (rest : List Action) (fin : Finish)
deriving DecidableEq, Repr

/-- The response codes (10_state.md R15, 60_exceptions.md R180). -/
inductive RspCode where
  | ok
  | invalidArg
  | channelFault
  | invalidOp
deriving DecidableEq, Repr

/-- The exceptions a command can raise (60_exceptions.md R180 to R183). -/
inductive Exc where
  | invalidArgument
  | channelFault
  | invalidOpcode
deriving DecidableEq, Repr

/-! ## The environment -/

/-- The state of a reference responder (20_memory.md R54): 32 registers of 1 to 5 bytes, the two payload queues, and
the bytes received since `CSN(Low)` (none while CSN is high). -/
structure Chip where
  regs   : Vector (List Byte) 32
  txFifo : List (List Byte)
  rxFifo : List (List Byte)
  txn    : Option (List Byte)
deriving DecidableEq, Repr

/-- Who answers `transfer` (20_memory.md R53 to R55): the unconstrained oracle with the replies it will give first
(after them a free value, log 9), the document-labelled responder, or the datasheet-timed responder. -/
inductive Responder where
  | oracle (script : List Byte)
  | dlr (chip : Chip)
  | dtr (chip : Chip)
deriving DecidableEq, Repr

/-! ## The state -/

/-- The state: what 10_state.md R10 gives the block, the build's configuration (R5), the environment (R53, R69,
R183), and the model's own `trace` (R8, log 8) and `draws` (log 9). INVENTORY.md lists each with its rule. -/
structure State where
  /-- the build's parameters; no step writes them (R5, R19; log 4) -/
  cfg : Config
  /-- the read buffer `RB[0..5]` (R11) -/
  rb : Vector Byte 6
  /-- the level last driven on CE (R12) -/
  ce : Level
  /-- the level last driven on CSN (R13) -/
  csn : Level
  /-- the sequencer position (R14) -/
  seq : Seq
  /-- `rsp.code` (R15) -/
  rspCode : RspCode
  /-- `rsp.result` (R15) -/
  rspResult : Byte
  /-- `payload_width` (R16); no rule reads it -/
  payloadWidth : Byte
  /-- `addr_width` (R17); inert -/
  addrWidth : BitVec 3
  /-- `rx_addr_cache` (R17); inert -/
  rxAddrCache : List (List Byte)
  /-- ghost `last_cfg` (R28): none, or (receiveEnabled, powerUp) of the last configure that completed -/
  lastCfg : Option (Bool × Bool)
  /-- the events of the command in progress or last completed, oldest first (R8; log 8) -/
  trace : List Event
  /-- environment: what the host will present, next first (R69; log 14) -/
  pending : List Request
  /-- environment: who answers `transfer` (R53) -/
  responder : Responder
  /-- environment: which of the next transfers fail, next first; read only if CHANNEL_CAN_FAULT (R183; log 10) -/
  chanFaults : List Bool
  /-- the counter the free values are applied to (log 9) -/
  draws : Nat
deriving DecidableEq, Repr

/-! ## Why a step can stop -/

/-- Faults: none. Every error of the spec ends a command with a response and the machine goes on (60_exceptions.md
R189, R190), so nothing stops the block. -/
inductive Fault where
deriving DecidableEq, Repr

/-- Refusals. -/
inductive Refusal where
  /-- raised by a dispatch arm whose instruction has no meaning yet: safe. No arm of this model raises it. -/
  | notModelled (mnemonic : String)
  /-- raised by the step when the bytes presented to the transaction primitive are no level S transaction of the
  block (30_encoding.md R68: "Level S bytes the block never emits as a command byte"): safe. -/
  | undecodable (e : DecodeError)
deriving DecidableEq, Repr

/-- The machine right after reset (10_state.md R31, 70_reset_and_hazards.md R210): `seq` Idle, `csn` High, `ce` Low,
`rsp.code` 0, ghost `last_cfg` none. The values of `rb`, `rspResult`, `payloadWidth`, `addrWidth` and `rxAddrCache` are
DESIGN CHOICES (log 1, 2, 3: the spec gives none). Nothing is presented, nothing has been emitted, and the responder is
the unconstrained oracle. -/
def State.reset : State where
  cfg := Config.standard
  rb := Vector.replicate 6 0x00
  ce := .low
  csn := .high
  seq := .idle
  rspCode := .ok
  rspResult := 0x00
  payloadWidth := 0x00
  addrWidth := 3
  rxAddrCache := []
  lastCfg := none
  trace := []
  pending := []
  responder := .oracle []
  chanFaults := []
  draws := 0

end Sys2Proof.Machine
end

