-- ==== Sys2Proof/Machine/Operands.lean ====
section
/-! DEFINITION. Operand values: setBit and the bytes the block composes (41_register_access.md R102, R103;
42_mode_controller.md R120, R123), the argument ranges (60_exceptions.md R181), and the slots of the read buffer. -/

namespace Sys2Proof.Machine

/-- The byte with only bit `n` set: `1 << n` (00_scope.md R6). -/
def bitMask (n : BitPos) : Byte := 1#8 <<< n.toNat

/-- `setBit(v, n, s)` (R102): `v` with bit `n` forced to `s`. -/
def setBit (v : Byte) (n : BitPos) (s : Bool) : Byte :=
  if s then v ||| bitMask n else v &&& ~~~ bitMask n

/-- The CONFIG baseline: CRC enabled, 2-byte scheme (R120, decision D17). -/
def cfgBaseline (m : ChipMap) : Byte := bitMask m.bitEnCrc ||| bitMask m.bitCrco

/-- `cfg(rx, pw)` (R120): the CONFIG byte, from constants only. -/
def cfgByte (m : ChipMap) (rx pw : Bool) : Byte :=
  setBit (setBit (cfgBaseline m) m.bitPrimRx rx) m.bitPwrUp pw

/-- The two rate-selector bits of a rate (R123): (low, high), or none for a rate that is no legal value. -/
def rateBits (rate : Byte) : Option (Bool × Bool) :=
  if rate = 250#8 then some (true, false)
  else if rate = 1#8 then some (false, false)
  else if rate = 2#8 then some (false, true)
  else none

/-- The RF_SETUP byte of setDataRate (R123): the low-rate bit first, then the high-rate bit (decision D31). -/
def rateByte (m : ChipMap) (v : Byte) (lo hi : Bool) : Byte :=
  setBit (setBit v m.bitRfDrLow lo) m.bitRfDrHigh hi

/-- The value of the byte an action sends, at the moment it is sent. -/
def ByteSource.value (s : State) : ByteSource → Byte
  | .const b => b
  | .rate lo hi => rateByte s.cfg.map s.rb[1] lo hi

/-- The argument test of transmit and receive (R140, R141, R181): `N` in 1..5. -/
def payloadLenOk (n : BitVec 3) : Bool :=
  decide (Config.payloadMin ≤ n.toNat) && decide (n.toNat ≤ Config.payloadMax)

/-- The argument test of readRegister (R101, R181): `N` at most 5. -/
def readCountOk (n : BitVec 3) : Bool := decide (n.toNat ≤ Config.maxRdCount)

/-- The argument test of writeRegister (R100, R181): `N` at most MAX_WR_LEN. -/
def writeLenOk (c : Config) (n : BitVec 3) : Bool := decide (n.toNat ≤ c.maxWrLen.val)

/-- The slots of the read buffer, in the order replies arrive (20_memory.md R42). -/
def slots : List (Fin 6) := [0, 1, 2, 3, 4, 5]

/-- The number a response code has in `rsp.code` (10_state.md R15, 30_encoding.md R74). -/
def RspCode.bits : RspCode → BitVec 2
  | .ok => 0
  | .invalidArg => 1
  | .channelFault => 2
  | .invalidOp => 3

end Sys2Proof.Machine
end

