-- ==== Sys2Proof/Machine/Flags.lean ====
section
/-! DEFINITION. Flags. The block has none of its own (10_state.md R30). The three interrupt flags are bits of the
chip's STATUS byte (R21, 60_exceptions.md R186): their masks, which the block sends (44_interrupt_status.md R161), and
the write-one-to-clear rule of a STATUS write (20_memory.md R46, R54). -/

namespace Sys2Proof.Machine

/-- The byte that clears data-ready alone (R161: 0x40 with the GK default). -/
def rxDrMask (m : ChipMap) : Byte := bitMask m.bitRxDr

/-- The byte that clears data-sent alone (R161: 0x20 with the GK default). -/
def txDsMask (m : ChipMap) : Byte := bitMask m.bitTxDs

/-- The byte that clears max-retries alone (R161: 0x10 with the GK default). -/
def maxRtMask (m : ChipMap) : Byte := bitMask m.bitMaxRt

/-- All three flag bits of STATUS (R186). -/
def flagBits (m : ChipMap) : Byte := rxDrMask m ||| txDsMask m ||| maxRtMask m

/-- A STATUS write (R46, R54): clears each of the three flags whose bit in `d` is 1, and changes nothing else. -/
def clearFlags (m : ChipMap) (status d : Byte) : Byte := status &&& ~~~ (d &&& flagBits m)

/-- Whether a status byte reports data-ready (R21). -/
def dataReady (m : ChipMap) (status : Byte) : Bool := status.getLsbD m.bitRxDr.toNat

/-- Whether a status byte reports data-sent (R21). -/
def dataSent (m : ChipMap) (status : Byte) : Bool := status.getLsbD m.bitTxDs.toNat

/-- Whether a status byte reports max-retries (R21). -/
def maxRetries (m : ChipMap) (status : Byte) : Bool := status.getLsbD m.bitMaxRt.toNat

end Sys2Proof.Machine
end

