-- ==== Sys2Proof/Machine/Responder.lean ====
section
/-! DEFINITION. Who answers a transfer (20_memory.md R53 to R55): the unconstrained oracle and the two reference
responders. None of it is hardware of the block; the reference responders are the premises the spec states its
properties against (41_register_access.md R105, 44_interrupt_status.md R162). -/

namespace Sys2Proof.Machine

/-- The chip's status byte, `reg[ADDR_STATUS][0]` (R54). -/
def Chip.status (m : ChipMap) (c : Chip) : Option Byte := c.regs[m.addrStatus.toFin].head?

/-- The content a read command asks for (R54): the addressed register, or the head payload of the RX FIFO; none for
a command that is no read. -/
def Chip.content (c : Chip) : BusCommand → Option (List Byte)
  | .rRegister a => some c.regs[a.toFin]
  | .rRxPayload => some (c.rxFifo.head?.getD [])
  | .wRegister _ => none
  | .wTxPayload => none
  | .flushTx => none
  | .flushRx => none

/-- The content of the transaction whose command byte is `b`; none if `b` is no read command. -/
def Chip.readContent (c : Chip) (b : Byte) : Option (List Byte) :=
  match busCommand b with
  | some cmd => c.content cmd
  | none => none

/-- The reply to the next transfer of a transaction in which `sent` has been received (R54, R55), or none for a draw.
Transfer 0 is answered with the status byte. For a read, `labelled` is whether transfer 1 is answered with the status
again (the DLR) before the content, or the content follows at once (the DTR). Any other command is answered with the
status byte throughout. -/
def Chip.reply (m : ChipMap) (labelled : Bool) (c : Chip) (sent : List Byte) : Option Byte :=
  match sent with
  | [] => c.status m
  | b :: more =>
    match c.readContent b with
    | none => c.status m
    | some content =>
      match labelled, more.length with
      | true, 0 => c.status m
      | true, k + 1 => content[k]?
      | false, k => content[k]?

/-- The register a write leaves (R54): `reg[a][i] <- d_i` for each byte given. The bytes beyond keep their values; a
list longer than the register is stored as given (U13; log 18). -/
def storeBytes (old d : List Byte) : List Byte := d ++ old.drop d.length

/-- A write to STATUS (R54): clears flags by the first data byte and changes nothing else. -/
def storeStatus (m : ChipMap) (old d : List Byte) : List Byte :=
  match old, d with
  | st :: rest, b :: _ => clearFlags m st b :: rest
  | [], _ => old
  | _, [] => old

/-- The effect of a finished transaction on the chip (R54), applied at `CSN(High)`. -/
def Chip.commit (m : ChipMap) (c : Chip) : List Byte → Chip
  | [] => c
  | b :: d =>
    match busCommand b with
    | some (.wRegister a) =>
      let old := c.regs[a.toFin]
      let new := if a = m.addrStatus then storeStatus m old d else storeBytes old d
      { c with regs := c.regs.set a.toFin new }
    | some .wTxPayload =>
      if c.txFifo.length < Config.fifoDepth then { c with txFifo := c.txFifo ++ [d] } else c
    | some .rRxPayload => { c with rxFifo := c.rxFifo.tail }
    | some .flushTx => { c with txFifo := [] }
    | some .flushRx => { c with rxFifo := [] }
    | some (.rRegister _) => c
    | none => c

/-- What `SetLine(CSN, v)` does to the chip (R54): Low opens a transaction, High ends the open one. Driving the line to
the level it has does nothing. -/
def Chip.onCsn (m : ChipMap) (v : Level) (c : Chip) : Chip :=
  match v, c.txn with
  | .low, none => { c with txn := some [] }
  | .low, some _ => c
  | .high, none => c
  | .high, some sent => { (c.commit m sent) with txn := none }

/-- The chip after one more byte of the open transaction. -/
def Chip.receive (b : Byte) (c : Chip) : Chip := { c with txn := some (c.txn.getD [] ++ [b]) }

/-- What `SetLine(CSN, v)` does to the responder. -/
def Responder.onCsn (m : ChipMap) (v : Level) : Responder → Responder
  | .oracle script => .oracle script
  | .dlr c => .dlr (c.onCsn m v)
  | .dtr c => .dtr (c.onCsn m v)

/-- The reply to a transfer, `draw` being what stands where nothing says what is replied (R53 to R55). -/
def Responder.reply (m : ChipMap) (draw : Byte) : Responder → Byte
  | .oracle script => script.head?.getD draw
  | .dlr c => (c.reply m true (c.txn.getD [])).getD draw
  | .dtr c => (c.reply m false (c.txn.getD [])).getD draw

/-- The responder after a transfer of `b`. -/
def Responder.receive (b : Byte) : Responder → Responder
  | .oracle script => .oracle script.tail
  | .dlr c => .dlr (c.receive b)
  | .dtr c => .dtr (c.receive b)

end Sys2Proof.Machine
end

