-- ==== Sys2Proof/Machine/Ops.lean ====
section
/-! DEFINITION. The named operations every meaning is written with: the primitives of 00_scope.md R7, the sequencer
(10_state.md R14) one event at a time and to its end, raising an exception (60_exceptions.md R180 to R190), delivering a
response (10_state.md R15), and the environment's reset (70_reset_and_hazards.md R210). -/

namespace Sys2Proof.Machine

/-! ## Primitives (R7) -/

/-- Emit an event (R8). -/
def emit (e : Event) (s : State) : State := { s with trace := s.trace ++ [e] }

/-- `SetLine(l, v)`: writes the block's copy of the level and emits the event, whatever the level was (R12, R13,
decision D20). The responder sees CSN. -/
def setControlLine (l : Line) (v : Level) (s : State) : State :=
  match l with
  | .ce => emit (.line .ce v) { s with ce := v }
  | .csn => emit (.line .csn v) { s with csn := v, responder := s.responder.onCsn s.cfg.map v }

/-- `Delay(ms)`: only the event (60_exceptions.md R193). -/
def delayMs (ms : BitVec 32) (s : State) : State := emit (.delay ms) s

/-- `RB[i] <- v`, for the slot a reply is kept in; nothing for a reply that is discarded. -/
def storeReply (slot : Option (Fin 6)) (v : Byte) (s : State) : State :=
  match slot with
  | none => s
  | some i => { s with rb := s.rb.set i v }

/-- `RB[i]`: the host's read port, and setDataRate's and respondToInterrupt's reads (R11). -/
def readSlot (i : Fin 6) (s : State) : Byte := s.rb[i]

/-- Whether the next transfer fails (R183): never unless CHANNEL_CAN_FAULT; then as `chanFaults` says, and a free value
beyond it (log 10). -/
def transferFails (s : State) : Bool :=
  s.cfg.channelCanFault &&
    match s.chanFaults with
    | [] => Config.freeFails s.draws
    | f :: _ => f

/-- The channel's part of a transfer: one entry of `chanFaults` is used up if the channel can fail, and one draw. -/
def useChannel (s : State) : State :=
  { s with chanFaults := if s.cfg.channelCanFault then s.chanFaults.tail else s.chanFaults, draws := s.draws + 1 }

/-- The reply the responder gives to the next transfer (20_memory.md R53). -/
def nextReply (s : State) : Byte := s.responder.reply s.cfg.map (Config.freeByte s.draws)

/-- `Xfer(b)`, where the transfer does not fail: the event, and the reply kept or discarded. -/
def exchange (b : Byte) (slot : Option (Fin 6)) (s : State) : State :=
  let r := nextReply s
  storeReply slot r (emit (.xfer b r) (useChannel { s with responder := s.responder.receive b }))

/-! ## The response (R15) and exceptions (60_exceptions.md) -/

/-- `rsp.result` unspecified: a free value, drawn at each command (R15, U7; log 11). -/
def drawResult (s : State) : State := { s with rspResult := Config.freeByte s.draws, draws := s.draws + 1 }

/-- RAISING AN EXCEPTION, the one shared operation (R180, R189): writes `rsp.code` and leaves `seq` Idle; nothing is
saved, nothing is vectored and no mode changes. `rsp.result` is unspecified after InvalidArgument (R181) and
ChannelFault (R160, R183); InvalidOpcode changes nothing but the code (R72, R182; log 12). -/
def raise (e : Exc) (s : State) : State :=
  match e with
  | .invalidArgument => drawResult { s with rspCode := .invalidArg, seq := .idle }
  | .channelFault => drawResult { s with rspCode := .channelFault, seq := .idle }
  | .invalidOpcode => { s with rspCode := .invalidOp, seq := .idle }

/-- An exception before the first event of a command: the trace is empty (R181, R182). -/
def reject (e : Exc) (s : State) : State := raise e { s with trace := [] }

/-- The end of a command (R14, R15): the response is written and `seq` becomes Idle. There is no return instruction:
the next command is executed normally whatever the response was (R190). -/
def complete (f : Finish) (s : State) : State :=
  match f with
  | .ok => drawResult { s with rspCode := .ok, seq := .idle }
  | .okByte v => { s with rspCode := .ok, rspResult := v, seq := .idle }
  | .okSlot i => { s with rspCode := .ok, rspResult := readSlot i s, seq := .idle }
  | .bus => { s with seq := .idle }
  | .channelFault => raise .channelFault s

/-! ## The sequencer (R14) -/

/-- Whether an action is a transfer that fails now (R183). -/
def Action.fails (s : State) : Action → Bool
  | .xfer _ _ => transferFails s
  | .setLine _ _ => false
  | .delay _ => false
  | .setPayloadWidth _ => false
  | .setLastCfg _ _ => false

/-- The effect of one action that does not fail. -/
def Action.perform (s : State) : Action → State
  | .setLine l v => setControlLine l v s
  | .xfer src slot => exchange (src.value s) slot s
  | .delay ms => delayMs ms s
  | .setPayloadWidth w => { s with payloadWidth := w }
  | .setLastCfg rx pw => { s with lastCfg := some (rx, pw) }

/-- Whether an action emits an event, so that `k` advances (R8, R14). -/
def Action.isEvent : Action → Bool
  | .setLine _ _ => true
  | .xfer _ _ => true
  | .delay _ => true
  | .setPayloadWidth _ => false
  | .setLastCfg _ _ => false

/-- What a failing transfer leaves of a command (40_bus_transaction.md R90, R183): the failing transfer emits no event,
the rest of the body and every later action are skipped, and `SetLine(CSN, High)` is still to be performed. -/
def faultRest : List Action := [.setLine .csn .high]

/-- One move of the sequencer: the next action of the command in progress, or, after the last one, the response. Idle
it stays Idle. -/
def tick (s : State) : State :=
  match s.seq with
  | .idle => s
  | .running _ _ [] fin => complete fin s
  | .running cmd k (a :: rest) fin =>
    if a.fails s then { useChannel s with seq := .running cmd k faultRest .channelFault }
    else { a.perform s with seq := .running cmd (if a.isEvent then k + 1 else k) rest fin }

/-- Running the actions that are left of a command to its end (R14: "after the last event the response is written and
seq <- Idle"). A failing transfer skips to the clean-up of R183. -/
def runActions : List Action → Finish → State → State
  | [], fin, s => complete fin s
  | a :: rest, fin, s =>
    if a.fails s then complete .channelFault (setControlLine .csn .high (useChannel s))
    else runActions rest fin (a.perform s)

/-- Accepting a command (R14, R69): it is latched, no event has been emitted yet. -/
def accept (cmd : Instr) (plan : List Action) (fin : Finish) (s : State) : State :=
  { s with seq := .running cmd 0 plan fin, trace := [] }

/-- Running a command from its acceptance to its end (R69: "runs it to its end"). -/
def runCommand (cmd : Instr) (plan : List Action) (fin : Finish) (s : State) : State :=
  runActions plan fin (accept cmd plan fin s)

/-- Running the command in progress, if there is one, to its end. -/
def finishCommand (s : State) : State :=
  match s.seq with
  | .idle => s
  | .running _ _ rest fin => runActions rest fin s

/-- Several moves of the sequencer. -/
def ticks : Nat → State → State
  | 0, s => s
  | n + 1, s => ticks n (tick s)

/-! ## Transactions (40_bus_transaction.md R90) -/

/-- `withTransaction(body)`: CSN low, the body, CSN high. -/
def withTransaction (body : List Action) : List Action :=
  .setLine .csn .low :: body ++ [.setLine .csn .high]

/-- Sending a byte and discarding the reply. -/
def send (b : Byte) : Action := .xfer (.const b) none

/-- The body of a read (R101, R141): the command byte, then the dummies whose replies go to `RB`. With RD_CAPTURE_CMD
the reply to the command byte is kept in slot 0 and one dummy fewer is sent. -/
def readBody (cfg : Config) (cmd : Byte) (count : Nat) : List Action :=
  if cfg.rdCaptureCmd then
    .xfer (.const cmd) (some 0) :: ((slots.take (count + 1)).drop 1).map fun i => .xfer (.const Config.dummy) (some i)
  else
    send cmd :: (slots.take (count + 1)).map fun i => .xfer (.const Config.dummy) (some i)

/-- The transaction of readRegister (R101). -/
def readPlan (cfg : Config) (a : RegAddr) (count : Nat) : List Action :=
  withTransaction (readBody cfg (BusCommand.rRegister a).byte count)

/-- The transaction of writeRegister (R100). -/
def writePlan (a : RegAddr) (bytes : List Byte) : List Action :=
  withTransaction (send (BusCommand.wRegister a).byte :: bytes.map send)

/-- The transaction of transmit (R140). -/
def txPayloadPlan (data : List Byte) : List Action :=
  withTransaction (send BusCommand.wTxPayload.byte :: data.map send)

/-- The transaction of receive (R141). -/
def rxPayloadPlan (cfg : Config) (count : Nat) : List Action :=
  withTransaction (readBody cfg BusCommand.rRxPayload.byte count)

/-- The transaction of flushTx (R142). -/
def flushTxPlan : List Action := withTransaction [send BusCommand.flushTx.byte]

/-- The transaction of flushRx (R143). -/
def flushRxPlan : List Action := withTransaction [send BusCommand.flushRx.byte]

/-! ## The environment -/

/-- The chip when the block is reset: its registers, FIFOs and flags keep their values (R210); an open transaction is
abandoned, not committed (log 19). -/
def Responder.abandon : Responder → Responder
  | .oracle script => .oracle script
  | .dlr c => .dlr { c with txn := none }
  | .dtr c => .dtr { c with txn := none }

/-- The reset event, asserted by the environment at any time (70_reset_and_hazards.md R210): every element of the block
goes to its reset value, a command in progress is abandoned and its trace simply stops; the build, the chip and the
environment are untouched. -/
def assertReset (s : State) : State :=
  { State.reset with
    cfg := s.cfg, trace := s.trace, pending := s.pending, responder := s.responder.abandon,
    chanFaults := s.chanFaults, draws := s.draws }

end Sys2Proof.Machine
end

