-- ==== Sys2Proof/Machine/BusTransaction.lean ====
section
/-! DEFINITION. The level S transactions as instructions of their own (30_encoding.md R61 to R67; 40_bus_transaction.md
R90): each is one transaction of the bus transaction primitive. Its replies go where the rule of the operation that
emits it keeps them; it has no response of its own, and drives CE in none of them (log 15). -/

namespace Sys2Proof.Machine

/-- OPC_R_REGISTER (R62, R101). -/
def execOpcRRegister (a : RegAddr) (count : Fin 6) (s : State) : Host.Outcome State Fault Refusal :=
  .next (runCommand (.opcRRegister a count) (readPlan s.cfg a count) .bus s)

/-- OPC_W_REGISTER (R63, R100). -/
def execOpcWRegister (a : RegAddr) (data : List Byte) (s : State) : Host.Outcome State Fault Refusal :=
  .next (runCommand (.opcWRegister a data) (writePlan a data) .bus s)

/-- OPC_W_TX_PAYLOAD (R64, R140). -/
def execOpcWTxPayload (data : List Byte) (s : State) : Host.Outcome State Fault Refusal :=
  .next (runCommand (.opcWTxPayload data) (txPayloadPlan data) .bus s)

/-- OPC_R_RX_PAYLOAD (R65, R141). -/
def execOpcRRxPayload (count : Fin 6) (s : State) : Host.Outcome State Fault Refusal :=
  .next (runCommand (.opcRRxPayload count) (rxPayloadPlan s.cfg count) .bus s)

/-- OPC_FLUSH_TX (R66, R142). -/
def execOpcFlushTx (s : State) : Host.Outcome State Fault Refusal :=
  .next (runCommand .opcFlushTx flushTxPlan .bus s)

/-- OPC_FLUSH_RX (R67, R143). -/
def execOpcFlushRx (s : State) : Host.Outcome State Fault Refusal :=
  .next (runCommand .opcFlushRx flushRxPlan .bus s)

end Sys2Proof.Machine
end

