-- ==== Sys2Proof/Machine/InterruptStatus.lean ====
section
/-! DEFINITION. Interrupt and status resolution (44_interrupt_status.md): clearInterrupts, respondToInterrupt. -/

namespace Sys2Proof.Machine

/-- The actions of clearInterrupts (R161): three single-byte STATUS writes, data-ready, data-sent, max-retries
(decision D12), then flushTx. -/
def clearInterruptsPlan (m : ChipMap) : List Action :=
  writePlan m.addrStatus [rxDrMask m] ++ writePlan m.addrStatus [txDsMask m] ++
    writePlan m.addrStatus [maxRtMask m] ++ flushTxPlan

/-- CLEAR_IRQ (R161). -/
def execClearIrq (s : State) : Host.Outcome State Fault Refusal :=
  .next (runCommand .clearIrq (clearInterruptsPlan s.cfg.map) .ok s)

/-- RESPOND_IRQ (R160): reads STATUS, clears, and returns `RB[0]`, which clearInterrupts does not touch. -/
def execRespondIrq (s : State) : Host.Outcome State Fault Refusal :=
  .next (runCommand .respondIrq
    (readPlan s.cfg s.cfg.map.addrStatus 1 ++ clearInterruptsPlan s.cfg.map) (.okSlot 0) s)

end Sys2Proof.Machine
end

