-- ==== Sys2Proof/Machine/ModeController.lean ====
section
/-! DEFINITION. The mode controller (42_mode_controller.md): configure, enterTransmitMode, enterReceiveMode,
setDataRate, configurePipes. -/

namespace Sys2Proof.Machine

/-- The actions of configure (R120), with the ghost `last_cfg` written when it completes (10_state.md R28). -/
def configurePlan (m : ChipMap) (rx pw : Bool) : List Action :=
  writePlan m.addrConfig [cfgByte m rx pw] ++ [.setLastCfg rx pw]

/-- CONFIGURE (R120). -/
def execConfigure (rx pw : Bool) (s : State) : Host.Outcome State Fault Refusal :=
  .next (runCommand (.configure rx pw) (configurePlan s.cfg.map rx pw) .ok s)

/-- ENTER_TX (R121). -/
def execEnterTx (s : State) : Host.Outcome State Fault Refusal :=
  .next (runCommand .enterTx (configurePlan s.cfg.map false true ++ [.setLine .ce .low]) .ok s)

/-- ENTER_RX (R122). -/
def execEnterRx (s : State) : Host.Outcome State Fault Refusal :=
  .next (runCommand .enterRx (configurePlan s.cfg.map true true ++ [.setLine .ce .high]) .ok s)

/-- The actions of setDataRate (R123): read RF_SETUP, then write the byte computed from `RB[1]`. -/
def setDataRatePlan (cfg : Config) (lo hi : Bool) : List Action :=
  readPlan cfg cfg.map.addrRfSetup 1 ++
    withTransaction [send (BusCommand.wRegister cfg.map.addrRfSetup).byte, .xfer (.rate lo hi) none]

/-- SET_DATA_RATE (R123). -/
def execSetDataRate (rate : Byte) (s : State) : Host.Outcome State Fault Refusal :=
  match rateBits rate with
  | some (lo, hi) => .next (runCommand (.setDataRate rate) (setDataRatePlan s.cfg lo hi) .ok s)
  | none => .next (reject .invalidArgument s)

/-- CONFIGURE_PIPES (R124). -/
def execConfigurePipes (mask width : Byte) (s : State) : Host.Outcome State Fault Refusal :=
  .next (runCommand (.configurePipes mask width)
    (writePlan s.cfg.map.addrEnRxaddr [mask] ++ writePlan s.cfg.map.addrRxPwP0 [width] ++ [.setPayloadWidth width]) .ok s)

end Sys2Proof.Machine
end

