-- ==== Sys2Proof/Machine/PayloadIO.lean ====
section
/-! DEFINITION. Payload input and output and the CE controller (43_payload_io.md): transmit, receive, flushTx,
flushRx. -/

namespace Sys2Proof.Machine

/-- The CE pulse that ends transmit (R140, R144). -/
def cePulse (cfg : Config) : List Action :=
  [.setLine .ce .high, .delay cfg.cePulseDelayMs, .setLine .ce .low]

/-- TRANSMIT (R140). -/
def execTransmit (n : BitVec 3) (data : List Byte) (s : State) : Host.Outcome State Fault Refusal :=
  if payloadLenOk n then .next (runCommand (.transmit n data) (txPayloadPlan data ++ cePulse s.cfg) .ok s)
  else .next (reject .invalidArgument s)

/-- RECEIVE (R141): CE low, one transaction, CE high. -/
def execReceive (n : BitVec 3) (s : State) : Host.Outcome State Fault Refusal :=
  if payloadLenOk n then
    .next (runCommand (.receive n)
      (.setLine .ce .low :: rxPayloadPlan s.cfg n.toNat ++ [.setLine .ce .high]) .ok s)
  else .next (reject .invalidArgument s)

/-- FLUSH_TX (R142). -/
def execFlushTx (s : State) : Host.Outcome State Fault Refusal :=
  .next (runCommand .flushTx flushTxPlan .ok s)

/-- FLUSH_RX (R143). -/
def execFlushRx (s : State) : Host.Outcome State Fault Refusal :=
  .next (runCommand .flushRx flushRxPlan .ok s)

end Sys2Proof.Machine
end

