-- ==== Sys2Proof/Machine/RegisterAccess.lean ====
section
/-! DEFINITION. The register access layer (41_register_access.md): writeRegister, readRegister, setBit. -/

namespace Sys2Proof.Machine

/-- WRITE_REGISTER (R100). -/
def execWriteRegister (a : RegAddr) (n : BitVec 3) (data : List Byte) (s : State) :
    Host.Outcome State Fault Refusal :=
  if writeLenOk s.cfg n then .next (runCommand (.writeRegister a n data) (writePlan a data) .ok s)
  else .next (reject .invalidArgument s)

/-- READ_REGISTER (R101). -/
def execReadRegister (a : RegAddr) (n : BitVec 3) (s : State) : Host.Outcome State Fault Refusal :=
  if readCountOk n then .next (runCommand (.readRegister a n) (readPlan s.cfg a n.toNat) .ok s)
  else .next (reject .invalidArgument s)

/-- SET_BIT (R102): no event, the result in `rsp.result` (decision D34). -/
def execSetBit (v : Byte) (n : BitPos) (isSet : Bool) (s : State) : Host.Outcome State Fault Refusal :=
  .next (runCommand (.setBit v n isSet) [] (.okByte (setBit v n isSet)) s)

end Sys2Proof.Machine
end

