-- ==== Sys2Proof/Machine/Reserved.lean ====
section
/-! DEFINITION. The two reserved operation numbers (30_encoding.md R72, 60_exceptions.md R182): InvalidOpcode. -/

namespace Sys2Proof.Machine

/-- RESERVED_E (R72): raises InvalidOpcode. -/
def execReservedE (s : State) : Host.Outcome State Fault Refusal := .next (reject .invalidOpcode s)

/-- RESERVED_F (R72): raises InvalidOpcode. -/
def execReservedF (s : State) : Host.Outcome State Fault Refusal := .next (reject .invalidOpcode s)

end Sys2Proof.Machine
end

