-- ==== Sys2Proof/Machine/Dispatch.lean ====
section
/-! DEFINITION. One arm per instruction. -/

namespace Sys2Proof.Machine

def exec (i : Instr) (s : State) : Host.Outcome State Fault Refusal :=
  match i with
  | .writeRegister a n data => Sys2Proof.Machine.execWriteRegister a n data s
  | .readRegister a n => Sys2Proof.Machine.execReadRegister a n s
  | .setBit v n isSet => Sys2Proof.Machine.execSetBit v n isSet s
  | .configure rx pw => Sys2Proof.Machine.execConfigure rx pw s
  | .enterTx => Sys2Proof.Machine.execEnterTx s
  | .enterRx => Sys2Proof.Machine.execEnterRx s
  | .setDataRate rate => Sys2Proof.Machine.execSetDataRate rate s
  | .configurePipes mask width => Sys2Proof.Machine.execConfigurePipes mask width s
  | .transmit n data => Sys2Proof.Machine.execTransmit n data s
  | .receive n => Sys2Proof.Machine.execReceive n s
  | .flushTx => Sys2Proof.Machine.execFlushTx s
  | .flushRx => Sys2Proof.Machine.execFlushRx s
  | .respondIrq => Sys2Proof.Machine.execRespondIrq s
  | .clearIrq => Sys2Proof.Machine.execClearIrq s
  | .reservedE => Sys2Proof.Machine.execReservedE s
  | .reservedF => Sys2Proof.Machine.execReservedF s
  | .opcRRegister a count => Sys2Proof.Machine.execOpcRRegister a count s
  | .opcWRegister a data => Sys2Proof.Machine.execOpcWRegister a data s
  | .opcWTxPayload data => Sys2Proof.Machine.execOpcWTxPayload data s
  | .opcRRxPayload count => Sys2Proof.Machine.execOpcRRxPayload count s
  | .opcFlushTx => Sys2Proof.Machine.execOpcFlushTx s
  | .opcFlushRx => Sys2Proof.Machine.execOpcFlushRx s

end Sys2Proof.Machine
end

