-- ==== Sys2Proof/Machine/Step.lean ====
section
/-! DEFINITION. One step of the machine: while Idle, the host presents its next request, which is decoded and run to
its end (30_encoding.md R69); with nothing presented the block waits (10_state.md R31). A state in the middle of a
command is one whose command then runs to its end (10_state.md R14; log 13). -/

namespace Sys2Proof.Machine

/-- One step. -/
def step (s : State) : Host.Outcome State Fault Refusal :=
  match s.seq with
  | .running _ _ _ _ => .next (finishCommand s)
  | .idle =>
    match s.pending with
    | [] => .next s
    | r :: more =>
      match decode s.cfg r with
      | .ok i => exec i { s with pending := more }
      | .error e => .refused (.undecodable e)

/-- `s` with the request of a table word presented next (log 14, 16): the block Idle, and the request first in the
host's list. -/
def State.withFetchWord (s : State) (nbits w : Nat) : State :=
  { s with seq := .idle, pending := tableRequest s.cfg.rdCaptureCmd nbits w :: s.pending }

end Sys2Proof.Machine
end

