-- ==== Sys2Proof/Machine/Views.lean ====
section
/-! DEFINITION. The two derived views of 10_state.md section 11: the transceiver mode (R28) and the resolution state
(R29). They are readings of the state; no rule and no meaning reads them. The types are this file's own vocabulary. -/

namespace Sys2Proof.Machine

/-- The names of the transceiver mode view (R28). -/
inductive TransceiverMode where
  | unconfigured
  | powerDown
  | txStandby
  | txActive
  | rxListening
  | rxSuspended
deriving DecidableEq, Repr

/-- The names of the resolution view (R29). -/
inductive Resolution where
  | idle
  | interruptPending
  | resolved
  /-- in the middle of a command that resolves nothing -/
  | otherCommand
deriving DecidableEq, Repr

/-- The transceiver mode view (R28's table): what the document says the chip does, no promise about the chip. -/
def transceiverMode (s : State) : TransceiverMode :=
  match s.lastCfg, s.ce with
  | none, _ => .unconfigured
  | some (_, false), _ => .powerDown
  | some (false, true), .low => .txStandby
  | some (false, true), .high => .txActive
  | some (true, true), .high => .rxListening
  | some (true, true), .low => .rxSuspended

/-- The number of events of the three STATUS writes of clearInterrupts (R161). -/
def clearWriteEvents : Nat := 12

/-- The number of events of the STATUS read of respondToInterrupt (R160): one fewer with RD_CAPTURE_CMD (R75). -/
def statusReadEvents (cfg : Config) : Nat := if cfg.rdCaptureCmd then 4 else 5

/-- The resolution view (R29): InterruptPending until the last event of the third STATUS write has been emitted,
Resolved after it, and Idle when the command has been answered. -/
def resolution (s : State) : Resolution :=
  match s.seq with
  | .idle => .idle
  | .running .respondIrq k _ _ =>
    if k < statusReadEvents s.cfg + clearWriteEvents then .interruptPending else .resolved
  | .running .clearIrq k _ _ => if k < clearWriteEvents then .interruptPending else .resolved
  | .running _ _ _ _ => .otherCommand

end Sys2Proof.Machine
end

