-- ==== Sys2Proof/Safety.lean ====
section
/-! DEFINITION. What holds of a state between and inside commands: the bracketing of a trace (40_bus_transaction.md
R91), the line levels (10_state.md R13), the event counter (R14), and the shape of a reference responder (20_memory.md
R54). Claims about safe runs are stated with these. -/

namespace Sys2Proof.Machine

/-- The bracketing of a trace (R91), read from its first event with `isOpen` saying whether a transaction is open: the
CSN events alternate, transfers stand inside a transaction, and CE and DELAY events outside one. The answer is whether
a transaction is open at the end, or none if the discipline is broken. -/
def bracket : Bool → List Event → Option Bool
  | isOpen, [] => some isOpen
  | true, .line .csn .high :: es => bracket false es
  | false, .line .csn .low :: es => bracket true es
  | true, .xfer _ _ :: es => bracket true es
  | false, .line .ce _ :: es => bracket false es
  | false, .delay _ :: es => bracket false es
  | true, .line .csn .low :: _ => none
  | false, .line .csn .high :: _ => none
  | false, .xfer _ _ :: _ => none
  | true, .line .ce _ :: _ => none
  | true, .delay _ :: _ => none

/-- A trace that obeys R91 and ends outside a transaction. -/
def Bracketed (es : List Event) : Prop := bracket false es = some false

/-- The same discipline of the actions still to run: they start inside or outside a transaction, and end outside. A
transfer that fails is followed by the `CSN(High)` of its clean-up, so this is also what makes a fault safe. -/
def actionsOk : Bool → List Action → Bool
  | isOpen, [] => !isOpen
  | true, .setLine .csn .high :: as => actionsOk false as
  | false, .setLine .csn .low :: as => actionsOk true as
  | true, .xfer _ _ :: as => actionsOk true as
  | false, .setLine .ce _ :: as => actionsOk false as
  | false, .delay _ :: as => actionsOk false as
  | false, .setPayloadWidth _ :: as => actionsOk false as
  | false, .setLastCfg _ _ :: as => actionsOk false as
  | true, .setLine .csn .low :: _ => false
  | false, .setLine .csn .high :: _ => false
  | false, .xfer _ _ :: _ => false
  | true, .setLine .ce _ :: _ => false
  | true, .delay _ :: _ => false
  | true, .setPayloadWidth _ :: _ => false
  | true, .setLastCfg _ _ :: _ => false

/-- How many events a list of actions emits if nothing fails. -/
def eventCount : List Action → Nat
  | [] => 0
  | a :: as => (if a.isEvent then 1 else 0) + eventCount as

/-- The length of the longest trace (R14: 20 events, respondToInterrupt). -/
def maxEvents : Nat := 20

/-- The block's invariant. Idle: `csn` is High (R13) and the last trace is bracketed (R91). In the middle of a command:
`k` counts the events emitted and at most 20 will be (R14), the trace so far and the actions left obey R91, and `csn` is
Low exactly inside a transaction. -/
def BlockInv (s : State) : Prop :=
  match s.seq with
  | .idle => s.csn = .high ∧ Bracketed s.trace ∧ s.trace.length ≤ maxEvents
  | .running _ k rest _ =>
    k = s.trace.length ∧ k + eventCount rest ≤ maxEvents ∧
      ∃ isOpen, bracket false s.trace = some isOpen ∧ actionsOk isOpen rest = true ∧
        s.csn = if isOpen then .low else .high

/-- The state space of a reference responder (R54): registers of 1 to 5 bytes, queues of at most three payloads. -/
def Chip.wf (c : Chip) : Bool :=
  c.regs.toList.all (fun r => decide (1 ≤ r.length) && decide (r.length ≤ 5)) &&
    decide (c.txFifo.length ≤ Config.fifoDepth) && decide (c.rxFifo.length ≤ Config.fifoDepth)

/-- The transfers of a trace as (mosi, miso) pairs, in order. -/
def transfers (es : List Event) : List (Byte × Byte) :=
  es.filterMap fun e => match e with
    | .xfer mosi miso => some (mosi, miso)
    | .line _ _ => none
    | .delay _ => none

/-- The events of one transaction that sends the bytes `mosi` and is answered `miso` (R61, R90). -/
def transaction (mosi miso : List Byte) : List Event :=
  .line .csn .low :: List.zipWith Event.xfer mosi miso ++ [.line .csn .high]

/-- The next `n` transfers do not fail: the channel cannot fail, or nothing says that one of them does (60_exceptions.md
R183). -/
def ChannelHolds (s : State) (n : Nat) : Prop :=
  s.cfg.channelCanFault = false ∨ ∃ more, s.chanFaults = List.replicate n false ++ more

/-- What a read of `count` content bytes leaves in the read buffer (41_register_access.md R101, 43_payload_io.md R141),
`miso` being the replies of its transaction in order, the reply to the command byte first: slot `i` up to `count` holds
the reply to dummy `i`, or to transfer `i` with RD_CAPTURE_CMD, and every slot beyond keeps its value. -/
def Captured (cfg : Config) (count : Nat) (miso : List Byte) (old new : Vector Byte 6) : Prop :=
  ∀ i : Fin 6,
    if i.val ≤ count then miso[if cfg.rdCaptureCmd then i.val else i.val + 1]? = some new[i]
    else new[i] = old[i]

/-- The events of a trace on CE and the delay, in order (43_payload_io.md R144). -/
def ceEvents (es : List Event) : List Event :=
  es.filter fun e => match e with
    | .line .ce _ => true
    | .delay _ => true
    | .line .csn _ => false
    | .xfer _ _ => false

/-- The level CE is left at by a trace that began with it at `v` (10_state.md R12). -/
def lastCe : Level → List Event → Level
  | v, [] => v
  | _, .line .ce v :: es => lastCe v es
  | v, .line .csn _ :: es => lastCe v es
  | v, .xfer _ _ :: es => lastCe v es
  | v, .delay _ :: es => lastCe v es

/-- The CE and DELAY events of each instruction that runs to its end (43_payload_io.md R144). -/
def cePattern (cfg : Config) : Instr → List Event
  | .enterTx => [.line .ce .low]
  | .enterRx => [.line .ce .high]
  | .transmit _ _ => [.line .ce .high, .delay cfg.cePulseDelayMs, .line .ce .low]
  | .receive _ => [.line .ce .low, .line .ce .high]
  | .writeRegister _ _ _ => []
  | .readRegister _ _ => []
  | .setBit _ _ _ => []
  | .configure _ _ => []
  | .setDataRate _ => []
  | .configurePipes _ _ => []
  | .flushTx => []
  | .flushRx => []
  | .respondIrq => []
  | .clearIrq => []
  | .reservedE => []
  | .reservedF => []
  | .opcRRegister _ _ => []
  | .opcWRegister _ _ => []
  | .opcWTxPayload _ => []
  | .opcRRxPayload _ => []
  | .opcFlushTx => []
  | .opcFlushRx => []

/-- A host command (level H), as opposed to a transaction presented by itself (level S). -/
def isHostCommand : Instr → Bool
  | .writeRegister _ _ _ => true
  | .readRegister _ _ => true
  | .setBit _ _ _ => true
  | .configure _ _ => true
  | .enterTx => true
  | .enterRx => true
  | .setDataRate _ => true
  | .configurePipes _ _ => true
  | .transmit _ _ => true
  | .receive _ => true
  | .flushTx => true
  | .flushRx => true
  | .respondIrq => true
  | .clearIrq => true
  | .reservedE => true
  | .reservedF => true
  | .opcRRegister _ _ => false
  | .opcWRegister _ _ => false
  | .opcWTxPayload _ => false
  | .opcRRxPayload _ => false
  | .opcFlushTx => false
  | .opcFlushRx => false

/-- Whether the operation of a host word reads its bit `k` (30_encoding.md R69, R70): `OP` is bits 63:60, `N` 58:56, `A`
52:48, `F1` 41, `F0` 40, and data byte `j` is bits 8j+7:8j, the first `N` of them read by the operations that take a
list. -/
def readsBit (w : HostWord) (k : Nat) : Bool :=
  let isN := decide (56 ≤ k ∧ k ≤ 58)
  let isA := decide (48 ≤ k ∧ k ≤ 52)
  let inList := decide (k < 8 * min (w.extractLsb' 56 3).toNat 5)
  decide (60 ≤ k ∧ k ≤ 63) ||
    match (w.extractLsb' 60 4).toNat with
    | 0x0 => isA || isN || inList
    | 0x1 => isA || isN
    | 0x2 => decide (k < 8) || isN || decide (k = 41)
    | 0x3 => decide (k = 41) || decide (k = 40)
    | 0x6 => decide (k < 8)
    | 0x7 => decide (k < 16)
    | 0x8 => isN || inList
    | 0x9 => isN
    | _ => false

/-- A command with an argument out of range, by the list of 60_exceptions.md R181. -/
def badArgument (cfg : Config) : Instr → Prop
  | .setDataRate rate => rate ≠ 250#8 ∧ rate ≠ 1#8 ∧ rate ≠ 2#8
  | .transmit n _ => ¬ (1 ≤ n.toNat ∧ n.toNat ≤ 5)
  | .receive n => ¬ (1 ≤ n.toNat ∧ n.toNat ≤ 5)
  | .readRegister _ n => 5 < n.toNat
  | .writeRegister _ n _ => cfg.maxWrLen.val < n.toNat
  | .setBit _ _ _ => False
  | .configure _ _ => False
  | .enterTx => False
  | .enterRx => False
  | .configurePipes _ _ => False
  | .flushTx => False
  | .flushRx => False
  | .respondIrq => False
  | .clearIrq => False
  | .reservedE => False
  | .reservedF => False
  | .opcRRegister _ _ => False
  | .opcWRegister _ _ => False
  | .opcWTxPayload _ => False
  | .opcRRxPayload _ => False
  | .opcFlushTx => False
  | .opcFlushRx => False

/-- The slots of the read buffer an instruction may overwrite (41_register_access.md R104, 10_state.md R11): slots 0 to
`count` of a read, slots 0 and 1 of setDataRate and respondToInterrupt, none of any other. -/
def mayOverwrite (i : Instr) (slot : Fin 6) : Prop :=
  match i with
  | .readRegister _ n => slot.val ≤ n.toNat
  | .receive n => slot.val ≤ n.toNat
  | .setDataRate _ => slot.val ≤ 1
  | .respondIrq => slot.val ≤ 1
  | .opcRRegister _ count => slot.val ≤ count.val
  | .opcRRxPayload count => slot.val ≤ count.val
  | .writeRegister _ _ _ => False
  | .setBit _ _ _ => False
  | .configure _ _ => False
  | .enterTx => False
  | .enterRx => False
  | .configurePipes _ _ => False
  | .transmit _ _ => False
  | .flushTx => False
  | .flushRx => False
  | .clearIrq => False
  | .reservedE => False
  | .reservedF => False
  | .opcWRegister _ _ => False
  | .opcWTxPayload _ => False
  | .opcFlushTx => False
  | .opcFlushRx => False

end Sys2Proof.Machine
end

