-- ==== Sys2Proof/Certificates/Slice0/Obligations.lean ====
section
/-! DEFINITION. The statements for the provers. Each docstring names the rule of spec/ it formalises; OBLIGATIONS.json
lists them. Where a next state is written `{ s with ... }`, every field not named is the start state's: that is the
frame. `rspResult := t.rspResult` says that nothing is claimed of `rsp.result`, and `responder`, `chanFaults`, `draws`
are the environment's. -/

open Sys2Proof Sys2Proof.Machine

/-! ## Encodings -/

/-- Decoding the words of a well-formed instruction gives it back, at both levels and for every build (30_encoding.md
R62 to R72). -/
def Obligations.DecodeOfEncodeIsTheInstruction : Prop :=
  ∀ (cfg : Config) (i : Instr), i.wf = true → decode cfg (encode cfg i) = .ok i

/-- Whatever is decoded is well formed (R71 b, R75), and a transaction has only the spelling it was decoded from. -/
def Obligations.DecodedIsWellFormedAndFramesHaveOneSpelling : Prop :=
  ∀ (cfg : Config) (r : Request) (i : Instr), decode cfg r = .ok i →
    i.wf = true ∧ ∀ frame : List Byte, r = .bus frame → encode cfg i = .bus frame

/-- R73, first sentence: two host words that agree on `OP` and on the fields their operation reads (R70, `readsBit`) are
the same instruction, so that a step on either does the same. -/
def Obligations.UnreadFieldsAreIgnored : Prop :=
  ∀ w w' : HostWord, (∀ k, readsBit w k = true → w.getLsbD k = w'.getLsbD k) →
    decodeHost w = decodeHost w' ∧
      ∀ (s : State) (more : List Request), s.seq = .idle →
        step { s with pending := .host w :: more } = step { s with pending := .host w' :: more }

/-- R61 to R68: the command bytes. Reading inverts making, nothing else is read as a command, and the bytes are those
of the level S format table. -/
def Obligations.CommandBytesAreTheTable : Prop :=
  (∀ (c : BusCommand) (b : Byte), busCommand b = some c ↔ c.byte = b) ∧
  (∀ a : RegAddr, (BusCommand.rRegister a).byte = 0b000#3 ++ a ∧ (BusCommand.wRegister a).byte = 0b001#3 ++ a) ∧
  BusCommand.wTxPayload.byte = 0b10100000#8 ∧ BusCommand.rRxPayload.byte = 0b01100001#8 ∧
  BusCommand.flushTx.byte = 0b11100001#8 ∧ BusCommand.flushRx.byte = 0b11100010#8

/-- Command words of the spec's worked examples, written out by hand from the layout of R69 and R61 (no word here is
the encoder's). -/
def Obligations.WorkedExampleWordsDecode : Prop :=
  decodeHost 0x010000000000000E#64 = .writeRegister 0x00 1 [0x0E] ∧
  decodeHost 0x1107000000000000#64 = .readRegister 0x07 1 ∧
  decodeHost 0x210002000000000C#64 = .setBit 0x0C 1 true ∧
  decodeHost 0x3000010000000000#64 = .configure false true ∧
  decodeHost 0x60000000000000FA#64 = .setDataRate 250 ∧
  decodeHost 0x7000000000001003#64 = .configurePipes 0x03 16 ∧
  decodeHost 0x8300000000030201#64 = .transmit 3 [0x01, 0x02, 0x03] ∧
  decodeHost 0x9200000000000000#64 = .receive 2 ∧
  decodeHost 0xD000000000000000#64 = .clearIrq ∧
  decodeHost 0xE305030504030201#64 = .reservedE ∧
  decodeFrame false [0x07, 0x00, 0x00] = .ok (.opcRRegister 0x07 1) ∧
  decodeFrame false [0x26, 0x27] = .ok (.opcWRegister 0x06 [0x27]) ∧
  decodeFrame false [0xE1] = .ok .opcFlushTx

/-! ## The step -/

/-- A step of an Idle block runs exactly the instruction its next request decodes to (R69). -/
def Obligations.StepRunsTheDecodedInstruction : Prop :=
  ∀ (s : State) (r : Request) (more : List Request) (i : Instr),
    s.seq = .idle → s.pending = r :: more → decode s.cfg r = .ok i → step s = exec i { s with pending := more }

/-- An Idle block to which nothing is presented waits (10_state.md R31), and one to which bytes are presented that are
no transaction of the block refuses them by name (R68; the refusal is the model's choice, log 17). -/
def Obligations.IdleBlockWaitsOrRefusesByName : Prop :=
  ∀ s : State, s.seq = .idle →
    (s.pending = [] → step s = .next s) ∧
    (∀ (frame : List Byte) (more : List Request) (e : DecodeError), s.pending = .bus frame :: more →
      decodeFrame s.cfg.rdCaptureCmd frame = .error e → step s = .refused (.undecodable e))

/-- A word of the opcode table that decodes is what the very next step runs, from any state and for any build. How a
table word is presented is the model's choice (log 14, 16). -/
def Obligations.FetchedTableWordIsRun : Prop :=
  ∀ (s : State) (nbits w : Nat) (i : Instr), decodeTableWord nbits w = some i →
    step (s.withFetchWord nbits w) = exec i { s with seq := .idle }

/-- No instruction stops the block: every error of the spec ends the command with a response (60_exceptions.md R189,
R190). -/
def Obligations.EveryInstructionAnswers : Prop :=
  ∀ (i : Instr) (s : State), ∃ t : State, exec i s = .next t ∧ t.seq = .idle

/-! ## Invariants and the sequencer -/

/-- The invariant holds after reset. -/
def Obligations.InvariantHoldsAtReset : Prop := BlockInv State.reset

/-- Every step keeps the invariant, and ends Idle with `csn` High (10_state.md R13), a trace in which CSN alternates
and every transfer is inside a transaction (R91), and at most 20 events (R14). -/
def Obligations.EveryStepKeepsTheInvariant : Prop :=
  ∀ s t : State, BlockInv s → step s = .next t →
    BlockInv t ∧ t.seq = .idle ∧ t.csn = .high ∧ Bracketed t.trace ∧ t.trace.length ≤ 20

/-- Every single move of the sequencer keeps it too, so it holds at every position inside a command, a failing transfer
included. -/
def Obligations.EveryTickKeepsTheInvariant : Prop := ∀ s : State, BlockInv s → BlockInv (tick s)

/-- The sequencer one event at a time does what the meanings do at once: from any position of any command, moving it
until nothing can be left is running the command to its end, which is what a step there does (R14). -/
def Obligations.TicksRefineTheRun : Prop :=
  ∀ (s : State) (cmd : Instr) (k : Nat) (rest : List Action) (fin : Finish), s.seq = .running cmd k rest fin →
    ticks (rest.length + 2) s = runActions rest fin s ∧ step s = .next (ticks (rest.length + 2) s)

/-- R14: while a command runs its word is held unchanged, `k` advances by exactly one per event and not otherwise, and
after the last event the response is written and `seq` is Idle. -/
def Obligations.CounterAdvancesByOnePerEvent : Prop :=
  ∀ (s : State) (cmd : Instr) (k : Nat) (rest : List Action) (fin : Finish), s.seq = .running cmd k rest fin →
    (rest = [] → (tick s).seq = .idle ∧ (tick s).trace = s.trace) ∧
    (rest ≠ [] → ∃ k' rest' fin', (tick s).seq = .running cmd k' rest' fin' ∧
      ((∃ e, (tick s).trace = s.trace ++ [e] ∧ k' = k + 1) ∨ ((tick s).trace = s.trace ∧ k' = k)))

/-! ## Reset -/

/-- R31: the reset values the spec gives, and the block then waits. -/
def Obligations.ResetValues : Prop :=
  State.reset.seq = .idle ∧ State.reset.csn = .high ∧ State.reset.ce = .low ∧ State.reset.rspCode = .ok ∧
    State.reset.lastCfg = none ∧ step State.reset = .next State.reset

/-- R210: the reset event, at any time, even inside a command, puts the block at those values, emits nothing, and keeps
the chip's registers and FIFOs (they stand in the responder). -/
def Obligations.ResetEventAbandonsTheCommand : Prop :=
  ∀ s : State,
    (assertReset s).seq = .idle ∧ (assertReset s).csn = .high ∧ (assertReset s).ce = .low ∧
    (assertReset s).rspCode = .ok ∧ (assertReset s).lastCfg = none ∧ (assertReset s).trace = s.trace ∧
    (assertReset s).cfg = s.cfg ∧
    (∀ c : Chip, s.responder = .dlr c → ∃ c', (assertReset s).responder = .dlr c' ∧
      c'.regs = c.regs ∧ c'.txFifo = c.txFifo ∧ c'.rxFifo = c.rxFifo)

/-! ## Exceptions -/

/-- R181: InvalidArgument is raised by exactly the listed commands and conditions, before the first event: the trace is
empty and nothing changes but `rsp`. -/
def Obligations.InvalidArgumentExactlyWhenListed : Prop :=
  ∀ (i : Instr) (s : State),
    (badArgument s.cfg i → ∃ t, exec i s = .next t ∧
      t = { s with seq := .idle, trace := [], rspCode := .invalidArg, rspResult := t.rspResult, draws := t.draws }) ∧
    (¬ badArgument s.cfg i → isHostCommand i = true → ∃ t, exec i s = .next t ∧ t.rspCode ≠ .invalidArg)

/-- R72, R182: a host word whose `OP` is 0xE or 0xF raises InvalidOpcode: no event, no state change but `rsp.code`, and
the host's word is used up. -/
def Obligations.ReservedOpcodeChangesOnlyTheCode : Prop :=
  (∀ s : State, exec .reservedE s = .next { s with seq := .idle, trace := [], rspCode := .invalidOp } ∧
    exec .reservedF s = .next { s with seq := .idle, trace := [], rspCode := .invalidOp }) ∧
  (∀ (s : State) (w : HostWord) (more : List Request), s.seq = .idle → s.pending = .host w :: more →
    w.extractLsb' 60 4 = 0xE#4 ∨ w.extractLsb' 60 4 = 0xF#4 →
    step s = .next { s with pending := more, trace := [], rspCode := .invalidOp })

/-- R183: without CHANNEL_CAN_FAULT no command ends in ChannelFault. With it, if transfer `j` (from 0) is the first to
fail, the command emits what it would emit up to that transfer, then `CSN(High)`, and ends with code 2: the failing
transfer emits no event, every later action is skipped (CE drives, delays, transactions, the write of
`payload_width`), and the read buffer slots already written keep their new bytes. `t0` is the same run where the
channel cannot fail. -/
def Obligations.ChannelFaultEndsTheCommand : Prop :=
  (∀ (i : Instr) (s t : State), s.cfg.channelCanFault = false → isHostCommand i = true → exec i s = .next t →
    t.rspCode ≠ .channelFault) ∧
  (∀ (i : Instr) (s t0 : State) (j : Nat) (more : List Bool),
    i.wf = true → s.cfg.channelCanFault = true → s.chanFaults = List.replicate j false ++ true :: more →
    exec i { s with cfg := { s.cfg with channelCanFault := false } } = .next t0 → j < (transfers t0.trace).length →
    ∃ (t : State) (before after : List Event) (b r : Byte),
      exec i s = .next t ∧ t0.trace = before ++ .xfer b r :: after ∧ (transfers before).length = j ∧
      t.trace = before ++ [.line .csn .high] ∧ t.csn = .high ∧ t.seq = .idle ∧ t.rspCode = .channelFault ∧
      t.ce = lastCe s.ce before ∧ t.payloadWidth = s.payloadWidth ∧ t.lastCfg = s.lastCfg ∧ t.cfg = s.cfg ∧
      t.addrWidth = s.addrWidth ∧ t.rxAddrCache = s.rxAddrCache ∧ t.pending = s.pending ∧ t.chanFaults = more ∧
      ∀ slot : Fin 6,
        (mayOverwrite i slot ∧ (if s.cfg.rdCaptureCmd then slot.val else slot.val + 1) < j →
          t.rb[slot] = t0.rb[slot]) ∧
        (¬ (mayOverwrite i slot ∧ (if s.cfg.rdCaptureCmd then slot.val else slot.val + 1) < j) →
          t.rb[slot] = s.rb[slot]))

/-- Consequences R183 names: a fault inside receive leaves CE Low; a fault inside transmit skips the CE pulse; a fault
inside enterReceiveMode or enterTransmitMode skips the CE drive. -/
def Obligations.ChannelFaultSkipsTheCeDrive : Prop :=
  ∀ (s t : State), t.rspCode = .channelFault →
    (∀ n : BitVec 3, exec (.receive n) s = .next t → t.ce = .low) ∧
    (∀ (n : BitVec 3) (data : List Byte), exec (.transmit n data) s = .next t →
      t.ce = s.ce ∧ ceEvents t.trace = []) ∧
    (exec .enterTx s = .next t → t.ce = s.ce ∧ ceEvents t.trace = []) ∧
    (exec .enterRx s = .next t → t.ce = s.ce ∧ ceEvents t.trace = [])

/-! ## Register access -/

/-- R100: writeRegister is one transaction, the command byte `0x20 | address` and the bytes in order; replies are
discarded, and only `csn` and `rsp` change. Too long a list is InvalidArgument. -/
def Obligations.WriteRegisterSendsItsBytes : Prop :=
  ∀ (s : State) (a : RegAddr) (n : BitVec 3) (data : List Byte), (Instr.writeRegister a n data).wf = true →
    (n.toNat ≤ s.cfg.maxWrLen.val → ChannelHolds s (data.length + 1) →
      ∃ (t : State) (miso : List Byte), exec (.writeRegister a n data) s = .next t ∧
        miso.length = data.length + 1 ∧
        t = { s with
          csn := .high, seq := .idle, rspCode := .ok, rspResult := t.rspResult,
          trace := transaction ((0x20#8 ||| a.setWidth 8) :: data) miso,
          responder := t.responder, chanFaults := t.chanFaults, draws := t.draws }) ∧
    (s.cfg.maxWrLen.val < n.toNat →
      ∃ t, exec (.writeRegister a n data) s = .next t ∧ t.trace = [] ∧ t.rspCode = .invalidArg)

/-- R101: readRegister is one transaction, the raw address and then `count + 1` dummies (`count` with RD_CAPTURE_CMD),
whose replies fill slots 0 to `count`; slots beyond keep their values. A count above 5 is InvalidArgument. -/
def Obligations.ReadRegisterFillsTheBuffer : Prop :=
  ∀ (s : State) (a : RegAddr) (n : BitVec 3),
    (n.toNat ≤ 5 → ChannelHolds s (n.toNat + 2) →
      ∃ (t : State) (miso : List Byte), exec (.readRegister a n) s = .next t ∧
        miso.length = (if s.cfg.rdCaptureCmd then n.toNat + 1 else n.toNat + 2) ∧
        Captured s.cfg n.toNat miso s.rb t.rb ∧
        t = { s with
          rb := t.rb, csn := .high, seq := .idle, rspCode := .ok, rspResult := t.rspResult,
          trace := transaction (a.setWidth 8 :: dummies s.cfg.rdCaptureCmd n.toNat) miso,
          responder := t.responder, chanFaults := t.chanFaults, draws := t.draws }) ∧
    (5 < n.toNat → ∃ t, exec (.readRegister a n) s = .next t ∧ t.trace = [] ∧ t.rb = s.rb ∧ t.rspCode = .invalidArg)

/-- R102: setBit emits nothing and changes nothing but `rsp`, whose result is the byte with that bit forced. -/
def Obligations.SetBitAnswersTheForcedByte : Prop :=
  ∀ (s : State) (v : Byte) (n : BitPos) (isSet : Bool),
    ∃ t : State, exec (.setBit v n isSet) s = .next t ∧
      t = { s with seq := .idle, trace := [], rspCode := .ok, rspResult := t.rspResult } ∧
      t.rspResult = (if isSet then v ||| (1#8 <<< n.toNat) else v &&& ~~~ (1#8 <<< n.toNat)) ∧
      ∀ m : BitPos, t.rspResult.getLsbD m.toNat = if m = n then isSet else v.getLsbD m.toNat

/-- R103: the laws of setBit, the round-trip law in its corrected form (conflict C2), and when it gives the byte back. -/
def Obligations.SetBitLaws : Prop :=
  ∀ (x : Byte) (n m : BitPos) (a b : Bool),
    (setBit x n a).getLsbD n.toNat = a ∧
    (m ≠ n → (setBit x n a).getLsbD m.toNat = x.getLsbD m.toNat) ∧
    setBit (setBit x n a) n b = setBit x n b ∧
    (m ≠ n → setBit (setBit x n a) m b = setBit (setBit x m b) n a) ∧
    setBit (setBit x n true) n false = x &&& ~~~ (1#8 <<< n.toNat) ∧
    (setBit (setBit x n true) n false = x ↔ x.getLsbD n.toNat = false)

/-- R104, R11: which slots of the read buffer an instruction may overwrite; all others keep their values, whatever the
arguments and whether or not a transfer fails. Of a transaction presented by itself they are the model's choice (log
15). -/
def Obligations.OnlyListedCommandsOverwriteTheBuffer : Prop :=
  ∀ (i : Instr) (s t : State) (slot : Fin 6), exec i s = .next t → ¬ mayOverwrite i slot → t.rb[slot] = s.rb[slot]

/-! ## The mode controller -/

/-- R120: configure writes the CONFIG byte, CRC bits set, PRIM_RX and PWR_UP as told and every other bit 0; `ce` is not
touched and the ghost remembers the call. -/
def Obligations.ConfigureWritesTheConfigByte : Prop :=
  ∀ (s : State) (rx pw : Bool), s.cfg.map.wf = true → ChannelHolds s 2 →
    ∃ (t : State) (miso : List Byte) (byte : Byte), exec (.configure rx pw) s = .next t ∧ miso.length = 2 ∧
      (∀ k : BitPos, byte.getLsbD k.toNat =
        if k = s.cfg.map.bitEnCrc ∨ k = s.cfg.map.bitCrco then true
        else if k = s.cfg.map.bitPrimRx then rx else if k = s.cfg.map.bitPwrUp then pw else false) ∧
      t = { s with
        csn := .high, seq := .idle, rspCode := .ok, rspResult := t.rspResult, lastCfg := some (rx, pw),
        trace := transaction [0x20#8 ||| s.cfg.map.addrConfig.setWidth 8, byte] miso,
        responder := t.responder, chanFaults := t.chanFaults, draws := t.draws }

/-- R121, R122: entering a mode is configure with the power bit set, then CE Low (transmit) or High (receive), driven
whatever it was. -/
def Obligations.EnteringAModeDrivesCe : Prop :=
  ∀ (s : State), ChannelHolds s 2 →
    (∃ (t : State) (miso : List Byte), exec .enterTx s = .next t ∧ miso.length = 2 ∧
      t = { s with
        ce := .low, csn := .high, seq := .idle, rspCode := .ok, rspResult := t.rspResult, lastCfg := some (false, true),
        trace := transaction [0x20#8 ||| s.cfg.map.addrConfig.setWidth 8, cfgByte s.cfg.map false true] miso ++
          [.line .ce .low],
        responder := t.responder, chanFaults := t.chanFaults, draws := t.draws }) ∧
    (∃ (t : State) (miso : List Byte), exec .enterRx s = .next t ∧ miso.length = 2 ∧
      t = { s with
        ce := .high, csn := .high, seq := .idle, rspCode := .ok, rspResult := t.rspResult, lastCfg := some (true, true),
        trace := transaction [0x20#8 ||| s.cfg.map.addrConfig.setWidth 8, cfgByte s.cfg.map true true] miso ++
          [.line .ce .high],
        responder := t.responder, chanFaults := t.chanFaults, draws := t.draws })

/-- R123: setDataRate reads RF_SETUP (one content byte) and writes back what it read in `RB[1]` with the low-rate and
high-rate bits of the rate and every other bit as read; any other rate is InvalidArgument with no event. -/
def Obligations.SetDataRateRewritesTheTwoRateBits : Prop :=
  ∀ (s : State) (rate : Byte) (lo hi : Bool), s.cfg.map.wf = true →
    ((rate = 250#8 ∧ lo = true ∧ hi = false) ∨ (rate = 1#8 ∧ lo = false ∧ hi = false) ∨
      (rate = 2#8 ∧ lo = false ∧ hi = true) → ChannelHolds s 5 →
      ∃ (t : State) (miso miso' : List Byte) (byte : Byte), exec (.setDataRate rate) s = .next t ∧
        miso.length = (if s.cfg.rdCaptureCmd then 2 else 3) ∧ miso'.length = 2 ∧
        Captured s.cfg 1 miso s.rb t.rb ∧
        (∀ k : BitPos, byte.getLsbD k.toNat =
          if k = s.cfg.map.bitRfDrLow then lo else if k = s.cfg.map.bitRfDrHigh then hi else t.rb[1].getLsbD k.toNat) ∧
        t = { s with
          rb := t.rb, csn := .high, seq := .idle, rspCode := .ok, rspResult := t.rspResult,
          trace := transaction (s.cfg.map.addrRfSetup.setWidth 8 :: dummies s.cfg.rdCaptureCmd 1) miso ++
            transaction [0x20#8 ||| s.cfg.map.addrRfSetup.setWidth 8, byte] miso',
          responder := t.responder, chanFaults := t.chanFaults, draws := t.draws }) ∧
    (rate ≠ 250#8 → rate ≠ 1#8 → rate ≠ 2#8 →
      ∃ t, exec (.setDataRate rate) s = .next t ∧ t.trace = [] ∧ t.rb = s.rb ∧ t.rspCode = .invalidArg)

/-- R124: configurePipes writes the mask to EN_RXADDR, then the width to RX_PW_P0, each a single-byte write, then keeps
the width in `payload_width`; nothing is validated. -/
def Obligations.ConfigurePipesWritesMaskThenWidth : Prop :=
  ∀ (s : State) (mask width : Byte), ChannelHolds s 4 →
    ∃ (t : State) (miso miso' : List Byte), exec (.configurePipes mask width) s = .next t ∧
      miso.length = 2 ∧ miso'.length = 2 ∧
      t = { s with
        csn := .high, seq := .idle, rspCode := .ok, rspResult := t.rspResult, payloadWidth := width,
        trace := transaction [0x20#8 ||| s.cfg.map.addrEnRxaddr.setWidth 8, mask] miso ++
          transaction [0x20#8 ||| s.cfg.map.addrRxPwP0.setWidth 8, width] miso',
        responder := t.responder, chanFaults := t.chanFaults, draws := t.draws }

/-! ## Payload input and output -/

/-- R140: transmit is one transaction, 0xA0 and the payload bytes in order, then CE high, the delay, CE low; a length
outside 1..5 is InvalidArgument with no event. -/
def Obligations.TransmitSendsThenPulsesCe : Prop :=
  ∀ (s : State) (n : BitVec 3) (data : List Byte), (Instr.transmit n data).wf = true →
    (1 ≤ n.toNat → n.toNat ≤ 5 → ChannelHolds s (data.length + 1) →
      ∃ (t : State) (miso : List Byte), exec (.transmit n data) s = .next t ∧ miso.length = data.length + 1 ∧
        t = { s with
          ce := .low, csn := .high, seq := .idle, rspCode := .ok, rspResult := t.rspResult,
          trace := transaction (0xA0#8 :: data) miso ++
            [.line .ce .high, .delay s.cfg.cePulseDelayMs, .line .ce .low],
          responder := t.responder, chanFaults := t.chanFaults, draws := t.draws }) ∧
    (n.toNat < 1 ∨ 5 < n.toNat →
      ∃ t, exec (.transmit n data) s = .next t ∧ t.trace = [] ∧ t.ce = s.ce ∧ t.rspCode = .invalidArg)

/-- R141: receive drives CE low, runs one transaction, 0x61 and the dummies whose replies fill slots 0 to `count`, and
drives CE high, whatever it was before; a count outside 1..5 is InvalidArgument with no event. -/
def Obligations.ReceiveFillsTheBufferWithCeLow : Prop :=
  ∀ (s : State) (n : BitVec 3),
    (1 ≤ n.toNat → n.toNat ≤ 5 → ChannelHolds s (n.toNat + 2) →
      ∃ (t : State) (miso : List Byte), exec (.receive n) s = .next t ∧
        miso.length = (if s.cfg.rdCaptureCmd then n.toNat + 1 else n.toNat + 2) ∧
        Captured s.cfg n.toNat miso s.rb t.rb ∧
        t = { s with
          rb := t.rb, ce := .high, csn := .high, seq := .idle, rspCode := .ok, rspResult := t.rspResult,
          trace := .line .ce .low :: transaction (0x61#8 :: dummies s.cfg.rdCaptureCmd n.toNat) miso ++
            [.line .ce .high],
          responder := t.responder, chanFaults := t.chanFaults, draws := t.draws }) ∧
    (n.toNat < 1 ∨ 5 < n.toNat →
      ∃ t, exec (.receive n) s = .next t ∧ t.trace = [] ∧ t.ce = s.ce ∧ t.rb = s.rb ∧ t.rspCode = .invalidArg)

/-- R142, R143: the two flushes are transactions of their command byte alone; the read buffer and CE are unchanged. -/
def Obligations.FlushesSendOneByte : Prop :=
  ∀ s : State, ChannelHolds s 1 →
    (∃ (t : State) (r : Byte), exec .flushTx s = .next t ∧
      t = { s with
        csn := .high, seq := .idle, rspCode := .ok, rspResult := t.rspResult, trace := transaction [0xE1] [r],
        responder := t.responder, chanFaults := t.chanFaults, draws := t.draws }) ∧
    (∃ (t : State) (r : Byte), exec .flushRx s = .next t ∧
      t = { s with
        csn := .high, seq := .idle, rspCode := .ok, rspResult := t.rspResult, trace := transaction [0xE2] [r],
        responder := t.responder, chanFaults := t.chanFaults, draws := t.draws })

/-- R144: CE is driven by exactly four operations and in exactly these patterns, and the only delay is the one inside
transmit. A command that is rejected or whose channel fails emits a first part of its pattern; `ce` is the level last
driven. -/
def Obligations.CeIsDrivenByFourOperationsOnly : Prop :=
  ∀ (i : Instr) (s t : State), exec i s = .next t →
    t.ce = lastCe s.ce t.trace ∧ ceEvents t.trace <+: cePattern s.cfg i ∧
    (s.cfg.channelCanFault = false → ¬ badArgument s.cfg i → ceEvents t.trace = cePattern s.cfg i)

/-! ## Interrupt and status resolution -/

/-- R161: clearInterrupts writes STATUS three times, one flag bit each, data-ready, data-sent, max-retries, then flushes
the TX FIFO; the read buffer and CE are unchanged. -/
def Obligations.ClearInterruptsWritesThreeFlagsThenFlushes : Prop :=
  ∀ s : State, ChannelHolds s 7 →
    ∃ (t : State) (m₁ m₂ m₃ m₄ : List Byte), exec .clearIrq s = .next t ∧
      m₁.length = 2 ∧ m₂.length = 2 ∧ m₃.length = 2 ∧ m₄.length = 1 ∧
      t = { s with
        csn := .high, seq := .idle, rspCode := .ok, rspResult := t.rspResult,
        trace :=
          transaction [0x20#8 ||| s.cfg.map.addrStatus.setWidth 8, 1#8 <<< s.cfg.map.bitRxDr.toNat] m₁ ++
          transaction [0x20#8 ||| s.cfg.map.addrStatus.setWidth 8, 1#8 <<< s.cfg.map.bitTxDs.toNat] m₂ ++
          transaction [0x20#8 ||| s.cfg.map.addrStatus.setWidth 8, 1#8 <<< s.cfg.map.bitMaxRt.toNat] m₃ ++
          transaction [0xE1] m₄,
        responder := t.responder, chanFaults := t.chanFaults, draws := t.draws }

/-- R160: respondToInterrupt reads STATUS (one content byte), then does what clearInterrupts does, and answers the byte
it captured in `RB[0]` before clearing. -/
def Obligations.RespondToInterruptReadsThenClears : Prop :=
  ∀ s : State, ChannelHolds s 10 →
    ∃ (t : State) (m₀ m₁ m₂ m₃ m₄ : List Byte), exec .respondIrq s = .next t ∧
      m₀.length = (if s.cfg.rdCaptureCmd then 2 else 3) ∧
      m₁.length = 2 ∧ m₂.length = 2 ∧ m₃.length = 2 ∧ m₄.length = 1 ∧
      Captured s.cfg 1 m₀ s.rb t.rb ∧
      t = { s with
        rb := t.rb, csn := .high, seq := .idle, rspCode := .ok, rspResult := t.rb[0],
        trace :=
          transaction (s.cfg.map.addrStatus.setWidth 8 :: dummies s.cfg.rdCaptureCmd 1) m₀ ++
          transaction [0x20#8 ||| s.cfg.map.addrStatus.setWidth 8, 1#8 <<< s.cfg.map.bitRxDr.toNat] m₁ ++
          transaction [0x20#8 ||| s.cfg.map.addrStatus.setWidth 8, 1#8 <<< s.cfg.map.bitTxDs.toNat] m₂ ++
          transaction [0x20#8 ||| s.cfg.map.addrStatus.setWidth 8, 1#8 <<< s.cfg.map.bitMaxRt.toNat] m₃ ++
          transaction [0xE1] m₄,
        responder := t.responder, chanFaults := t.chanFaults, draws := t.draws }

/-! ## Level S -/

/-- R61, R63, R64, R66, R67, R90: a writing or flushing transaction presented by itself. The model's choice (log 15):
it has no response, so `rsp` is unchanged. -/
def Obligations.WritingTransactionsSendTheirBytes : Prop :=
  ∀ (s : State) (i : Instr) (mosi : List Byte), i.wf = true →
    (i = .opcFlushTx ∧ mosi = [0xE1]) ∨ (i = .opcFlushRx ∧ mosi = [0xE2]) ∨
      (∃ data, i = .opcWTxPayload data ∧ mosi = 0xA0#8 :: data) ∨
      (∃ a data, i = .opcWRegister a data ∧ mosi = (0b001#3 ++ a) :: data) →
    ChannelHolds s mosi.length →
    ∃ (t : State) (miso : List Byte), exec i s = .next t ∧ miso.length = mosi.length ∧
      t = { s with
        csn := .high, seq := .idle, trace := transaction mosi miso,
        responder := t.responder, chanFaults := t.chanFaults, draws := t.draws }

/-- R61, R62, R65, R90: a reading transaction presented by itself. The model's choice (log 15): the replies go to the
slots R101 and R141 say, and `rsp` is unchanged. -/
def Obligations.ReadingTransactionsFillTheBuffer : Prop :=
  ∀ (s : State) (i : Instr) (cmd : Byte) (count : Fin 6), i.wf = true →
    (∃ a : RegAddr, i = .opcRRegister a count ∧ cmd = 0b000#3 ++ a) ∨ (i = .opcRRxPayload count ∧ cmd = 0x61) →
    ChannelHolds s (count.val + 2) →
    ∃ (t : State) (miso : List Byte), exec i s = .next t ∧
      miso.length = (if s.cfg.rdCaptureCmd then count.val + 1 else count.val + 2) ∧
      Captured s.cfg count.val miso s.rb t.rb ∧
      t = { s with
        rb := t.rb, csn := .high, seq := .idle, trace := transaction (cmd :: dummies s.cfg.rdCaptureCmd count.val) miso,
        responder := t.responder, chanFaults := t.chanFaults, draws := t.draws }

/-- R62, R63, R66, R67: a host command that is one transaction puts the same bytes on the bus, with the same replies,
buffer and effect on the responder, as that transaction presented by itself (the model's choice, log 15). -/
def Obligations.HostCommandsAreTheirTransactions : Prop :=
  ∀ (s t u : State) (i j : Instr), s.cfg.maxWrLen = 5 →
    (i = .flushTx ∧ j = .opcFlushTx) ∨ (i = .flushRx ∧ j = .opcFlushRx) ∨
      (∃ a n data, data.length = n.toNat ∧ n.toNat ≤ 5 ∧ i = .writeRegister a n data ∧ j = .opcWRegister a data) ∨
      (∃ a n, ∃ count : Fin 6, n.toNat = count.val ∧ i = .readRegister a n ∧ j = .opcRRegister a count) →
    exec i s = .next t → exec j s = .next u →
    t.trace = u.trace ∧ t.rb = u.rb ∧ t.responder = u.responder ∧ t.csn = u.csn ∧ t.chanFaults = u.chanFaults

/-! ## The responder -/

/-- R53: with a responder that is a script of replies and a channel that cannot fail, the replies of a command are the
script's, in order, and exactly those are used up. -/
def Obligations.ScriptedRepliesArriveInOrder : Prop :=
  ∀ (i : Instr) (s t : State) (script : List Byte),
    s.cfg.channelCanFault = false → s.responder = .oracle script → exec i s = .next t →
    (transfers t.trace).length ≤ script.length →
    (transfers t.trace).map Prod.snd = script.take (transfers t.trace).length ∧
      t.responder = .oracle (script.drop (transfers t.trace).length)

/-- R53: the block depends on the responder only through the reply bytes. Two runs of a command that differ in the
responder alone and happen to receive the same replies are the same run. -/
def Obligations.OnlyTheRepliesMatter : Prop :=
  ∀ (i : Instr) (s t t' : State) (other : Responder),
    exec i s = .next t → exec i { s with responder := other } = .next t' →
    (transfers t.trace).map Prod.snd = (transfers t'.trace).map Prod.snd →
    t' = { t with responder := t'.responder }

/-- R12, R16, R17, R190: no operation reads the line levels, `payload_width`, the inert attributes, the ghost, the
previous response or the previous trace: two runs that agree on the rest have the same trace, read buffer and response. -/
def Obligations.WriteOnlyStateIsNeverRead : Prop :=
  ∀ (i : Instr) (s s' t t' : State),
    s'.cfg = s.cfg → s'.rb = s.rb → s'.responder = s.responder → s'.chanFaults = s.chanFaults → s'.draws = s.draws →
    exec i s = .next t → exec i s' = .next t' →
    t'.trace = t.trace ∧ t'.rb = t.rb ∧ t'.responder = t.responder ∧
      (isHostCommand i = true → t'.rspCode = t.rspCode) ∧
      (isHostCommand i = true → i ≠ .reservedE → i ≠ .reservedF → t'.rspResult = t.rspResult)

/-- R17, R19: a step writes neither the build's parameters nor the inert attributes. -/
def Obligations.StepKeepsTheBuildAndInertAttributes : Prop :=
  ∀ s t : State, step s = .next t →
    t.cfg = s.cfg ∧ t.addrWidth = s.addrWidth ∧ t.rxAddrCache = s.rxAddrCache

/-- R105: the round trip. Against the DLR, writing a register other than STATUS and reading it back leaves the written
bytes in `RB[1..]` and the status byte in `RB[0]`; against the DTR the same with RD_CAPTURE_CMD, and without it the
bytes are in `RB[0..]`. -/
def Obligations.WriteThenReadRoundTrips : Prop :=
  ∀ (s : State) (c : Chip) (a : RegAddr) (n : BitVec 3) (data : List Byte) (st : Byte),
    s.cfg.channelCanFault = false → (Instr.writeRegister a n data).wf = true → 1 ≤ n.toNat →
    n.toNat ≤ s.cfg.maxWrLen.val → c.wf = true → c.txn = none → a ≠ s.cfg.map.addrStatus →
    data.length ≤ (c.regs[a.toFin]).length → c.status s.cfg.map = some st →
    ∀ labelled : Bool, s.responder = (if labelled then Responder.dlr c else Responder.dtr c) →
      ∃ t u : State, exec (.writeRegister a n data) s = .next t ∧ exec (.readRegister a n) t = .next u ∧
        ((labelled = true ∧ s.cfg.rdCaptureCmd = false) ∨ (labelled = false ∧ s.cfg.rdCaptureCmd = true) →
          u.rb[0] = st ∧ ∀ i : Fin 5, i.val < n.toNat → data[i.val]? = some u.rb[i.val + 1]) ∧
        (labelled = false ∧ s.cfg.rdCaptureCmd = false →
          ∀ i : Fin 5, i.val < n.toNat → data[i.val]? = some u.rb[i.val])

/-- R162: against the DLR, respondToInterrupt answers the status byte as it was, and afterwards a direct STATUS read
shows the three interrupt flags cleared and every other bit as it was, in both slots. -/
def Obligations.RespondToInterruptReportsThenClearsFlags : Prop :=
  ∀ (s : State) (c : Chip) (st : Byte),
    s.cfg.channelCanFault = false → s.responder = .dlr c → c.txn = none → c.status s.cfg.map = some st →
    ∃ t u : State, exec .respondIrq s = .next t ∧ t.rspResult = st ∧
      exec (.readRegister s.cfg.map.addrStatus 1) t = .next u ∧
      ∀ i : Fin 2, ∀ k : BitPos, u.rb[i.val].getLsbD k.toNat =
        if k = s.cfg.map.bitRxDr ∨ k = s.cfg.map.bitTxDs ∨ k = s.cfg.map.bitMaxRt then false
        else st.getLsbD k.toNat

/-- R54: what the commands leave in the DLR's FIFOs: a payload is queued if fewer than three are, the flushes and the
flush inside clearInterrupts empty theirs, and receive takes the head payload. -/
def Obligations.PayloadCommandsMoveTheFifos : Prop :=
  ∀ (s t : State) (c : Chip), s.cfg.channelCanFault = false → s.responder = .dlr c → c.txn = none →
    (∀ n data, (Instr.transmit n data).wf = true → 1 ≤ n.toNat → n.toNat ≤ 5 → exec (.transmit n data) s = .next t →
      t.responder = .dlr { c with txFifo := if c.txFifo.length < 3 then c.txFifo ++ [data] else c.txFifo }) ∧
    (∀ n, 1 ≤ n.toNat → n.toNat ≤ 5 → exec (.receive n) s = .next t →
      t.responder = .dlr { c with rxFifo := c.rxFifo.tail }) ∧
    (exec .flushTx s = .next t → t.responder = .dlr { c with txFifo := [] }) ∧
    (exec .flushRx s = .next t → t.responder = .dlr { c with rxFifo := [] }) ∧
    (exec .clearIrq s = .next t → ∃ c', t.responder = .dlr c' ∧ c'.txFifo = [] ∧ c'.rxFifo = c.rxFifo)

/-- R54: a reference responder keeps its state space under every step of an Idle block: registers of 1 to 5 bytes,
queues of at most three payloads, and no transaction left open. What a truncated transaction leaves is the model's choice
(log 18). -/
def Obligations.StepKeepsTheChipWellFormed : Prop :=
  ∀ (s t : State) (c : Chip), s.seq = .idle → c.wf = true → c.txn = none → step s = .next t →
    (s.responder = .dlr c → ∃ c' : Chip, t.responder = .dlr c' ∧ c'.wf = true ∧ c'.txn = none) ∧
    (s.responder = .dtr c → ∃ c' : Chip, t.responder = .dtr c' ∧ c'.wf = true ∧ c'.txn = none)

/-- R77: composite operations put the same events on the bus, with the same effect on the buffer, CE and the responder,
as the host issuing their expansion, one command after the other: configure is one register write, configurePipes two,
clearInterrupts three STATUS writes and flushTx, respondToInterrupt a STATUS read and clearInterrupts. The replies are
those of any script long enough for the command (20_memory.md R53). -/
def Obligations.CompositesAreTheirExpansions : Prop :=
  ∀ (s t u₁ u₂ u₃ u₄ : State) (script : List Byte), s.cfg.channelCanFault = false → 1 ≤ s.cfg.maxWrLen.val →
    s.responder = .oracle script → 10 ≤ script.length →
    (∀ rx pw, exec (.configure rx pw) s = .next t →
      exec (.writeRegister s.cfg.map.addrConfig 1 [cfgByte s.cfg.map rx pw]) s = .next u₁ →
      t = { u₁ with lastCfg := some (rx, pw) }) ∧
    (∀ mask width, exec (.configurePipes mask width) s = .next t →
      exec (.writeRegister s.cfg.map.addrEnRxaddr 1 [mask]) s = .next u₁ →
      exec (.writeRegister s.cfg.map.addrRxPwP0 1 [width]) u₁ = .next u₂ →
      t.trace = u₁.trace ++ u₂.trace ∧ t.rb = u₂.rb ∧ t.ce = u₂.ce ∧ t.responder = u₂.responder) ∧
    (exec .clearIrq s = .next t →
      exec (.writeRegister s.cfg.map.addrStatus 1 [rxDrMask s.cfg.map]) s = .next u₁ →
      exec (.writeRegister s.cfg.map.addrStatus 1 [txDsMask s.cfg.map]) u₁ = .next u₂ →
      exec (.writeRegister s.cfg.map.addrStatus 1 [maxRtMask s.cfg.map]) u₂ = .next u₃ →
      exec .flushTx u₃ = .next u₄ →
      t.trace = u₁.trace ++ u₂.trace ++ u₃.trace ++ u₄.trace ∧ t.rb = u₄.rb ∧ t.ce = u₄.ce ∧
        t.responder = u₄.responder) ∧
    (exec .respondIrq s = .next t → exec (.readRegister s.cfg.map.addrStatus 1) s = .next u₁ →
      exec .clearIrq u₁ = .next u₂ →
      t.trace = u₁.trace ++ u₂.trace ∧ t.rb = u₂.rb ∧ t.ce = u₂.ce ∧ t.responder = u₂.responder ∧
        t.rspResult = u₁.rb[0])

/-! ## Views -/

/-- R28: the transceiver mode view, by what enters each mode. -/
def Obligations.ModeViewFollowsTheCommands : Prop :=
  transceiverMode State.reset = .unconfigured ∧
  ∀ (s t : State), s.cfg.channelCanFault = false →
    (∀ rx, exec (.configure rx false) s = .next t → transceiverMode t = .powerDown) ∧
    (exec .enterTx s = .next t → transceiverMode t = .txStandby) ∧
    (exec .enterRx s = .next t → transceiverMode t = .rxListening) ∧
    (∀ n data, 1 ≤ n.toNat → n.toNat ≤ 5 → exec (.transmit n data) s = .next t →
      (s.lastCfg = some (false, true) → transceiverMode t = .txStandby) ∧
      (s.lastCfg = some (true, true) → transceiverMode t = .rxSuspended)) ∧
    (∀ n, 1 ≤ n.toNat → n.toNat ≤ 5 → exec (.receive n) s = .next t →
      (s.lastCfg = some (true, true) → transceiverMode t = .rxListening) ∧
      (s.lastCfg = some (false, true) → transceiverMode t = .txActive))

/-- R29: inside respondToInterrupt the resolution view is InterruptPending until the last event of the third STATUS
write has been emitted, that is until four transactions have ended, and Resolved from then to the response. -/
def Obligations.ResolutionViewFollowsTheWrites : Prop :=
  ∀ (s u : State) (n : Nat), s.cfg.channelCanFault = false →
    u = ticks n (accept .respondIrq (readPlan s.cfg s.cfg.map.addrStatus 1 ++ clearInterruptsPlan s.cfg.map)
      (.okSlot 0) s) →
    (u.seq = .idle ∧ resolution u = .idle) ∨
      (u.seq ≠ .idle ∧ resolution u =
        if u.trace.count (.line .csn .high) < 4 then .interruptPending else .resolved)
end

