-- ==== Sys2Proof/Laws/Encoding.lean ====
section
/-! SUPPORT. The fields of a packed host word, and the command bytes. -/

namespace Sys2Proof

@[simp] theorem op_packHost (op : BitVec 4) (n : BitVec 3) (a : RegAddr) (f1 f0 : Bool) (d4 d3 d2 d1 d0 : Byte) :
    (packHost op n a f1 f0 d4 d3 d2 d1 d0).op = op := by
  apply BitVec.eq_of_getLsbD_eq
  intro i hi
  simp only [HostWord.op, packHost, BitVec.getLsbD_extractLsb', BitVec.getLsbD_append]
  interval_cases i <;> simp

@[simp] theorem n_packHost (op : BitVec 4) (n : BitVec 3) (a : RegAddr) (f1 f0 : Bool) (d4 d3 d2 d1 d0 : Byte) :
    (packHost op n a f1 f0 d4 d3 d2 d1 d0).n = n := by
  apply BitVec.eq_of_getLsbD_eq
  intro i hi
  simp only [HostWord.n, packHost, BitVec.getLsbD_extractLsb', BitVec.getLsbD_append]
  interval_cases i <;> simp

@[simp] theorem a_packHost (op : BitVec 4) (n : BitVec 3) (a : RegAddr) (f1 f0 : Bool) (d4 d3 d2 d1 d0 : Byte) :
    (packHost op n a f1 f0 d4 d3 d2 d1 d0).a = a := by
  apply BitVec.eq_of_getLsbD_eq
  intro i hi
  simp only [HostWord.a, packHost, BitVec.getLsbD_extractLsb', BitVec.getLsbD_append]
  interval_cases i <;> simp

@[simp] theorem d0_packHost (op : BitVec 4) (n : BitVec 3) (a : RegAddr) (f1 f0 : Bool) (d4 d3 d2 d1 d0 : Byte) :
    (packHost op n a f1 f0 d4 d3 d2 d1 d0).d0 = d0 := by
  apply BitVec.eq_of_getLsbD_eq
  intro i hi
  simp only [HostWord.d0, packHost, BitVec.getLsbD_extractLsb', BitVec.getLsbD_append]
  interval_cases i <;> simp

@[simp] theorem d1_packHost (op : BitVec 4) (n : BitVec 3) (a : RegAddr) (f1 f0 : Bool) (d4 d3 d2 d1 d0 : Byte) :
    (packHost op n a f1 f0 d4 d3 d2 d1 d0).d1 = d1 := by
  apply BitVec.eq_of_getLsbD_eq
  intro i hi
  simp only [HostWord.d1, packHost, BitVec.getLsbD_extractLsb', BitVec.getLsbD_append]
  interval_cases i <;> simp

@[simp] theorem d2_packHost (op : BitVec 4) (n : BitVec 3) (a : RegAddr) (f1 f0 : Bool) (d4 d3 d2 d1 d0 : Byte) :
    (packHost op n a f1 f0 d4 d3 d2 d1 d0).d2 = d2 := by
  apply BitVec.eq_of_getLsbD_eq
  intro i hi
  simp only [HostWord.d2, packHost, BitVec.getLsbD_extractLsb', BitVec.getLsbD_append]
  interval_cases i <;> simp

@[simp] theorem d3_packHost (op : BitVec 4) (n : BitVec 3) (a : RegAddr) (f1 f0 : Bool) (d4 d3 d2 d1 d0 : Byte) :
    (packHost op n a f1 f0 d4 d3 d2 d1 d0).d3 = d3 := by
  apply BitVec.eq_of_getLsbD_eq
  intro i hi
  simp only [HostWord.d3, packHost, BitVec.getLsbD_extractLsb', BitVec.getLsbD_append]
  interval_cases i <;> simp

@[simp] theorem d4_packHost (op : BitVec 4) (n : BitVec 3) (a : RegAddr) (f1 f0 : Bool) (d4 d3 d2 d1 d0 : Byte) :
    (packHost op n a f1 f0 d4 d3 d2 d1 d0).d4 = d4 := by
  apply BitVec.eq_of_getLsbD_eq
  intro i hi
  simp only [HostWord.d4, packHost, BitVec.getLsbD_extractLsb', BitVec.getLsbD_append]
  interval_cases i <;> simp

@[simp] theorem f1_packHost (op : BitVec 4) (n : BitVec 3) (a : RegAddr) (f1 f0 : Bool) (d4 d3 d2 d1 d0 : Byte) :
    (packHost op n a f1 f0 d4 d3 d2 d1 d0).f1 = f1 := by
  simp only [HostWord.f1, packHost, BitVec.getLsbD_append]
  simp

@[simp] theorem f0_packHost (op : BitVec 4) (n : BitVec 3) (a : RegAddr) (f1 f0 : Bool) (d4 d3 d2 d1 d0 : Byte) :
    (packHost op n a f1 f0 d4 d3 d2 d1 d0).f0 = f0 := by
  simp only [HostWord.f0, packHost, BitVec.getLsbD_append]
  simp

/-- The list operand of a packed word, if the list has the length its `N` says. -/
theorem bytes_packBytes (op : BitVec 4) (n : BitVec 3) (a : RegAddr) (data : List Byte)
    (h : data.length = dataLen n) : (packBytes op n a data).bytes = data := by
  have hlen : data.length = min n.toNat 5 := h
  have htake : data.take n.toNat = data := List.take_of_length_le (by omega)
  simp only [HostWord.bytes, packBytes, d0_packHost, d1_packHost, d2_packHost, d3_packHost, d4_packHost, n_packHost]
  rcases data with _ | ⟨b0, _ | ⟨b1, _ | ⟨b2, _ | ⟨b3, _ | ⟨b4, _ | ⟨b5, l⟩⟩⟩⟩⟩⟩ <;> simp at hlen ⊢
  · omega
  · have : n.toNat = 1 := by omega
    simp [this]
  · have : n.toNat = 2 := by omega
    simp [this]
  · have : n.toNat = 3 := by omega
    simp [this]
  · have : n.toNat = 4 := by omega
    simp [this]
  · omega
  · omega

/-- A command byte is read as the command it was made from. -/
@[simp] theorem busCommand_byte (c : BusCommand) : busCommand c.byte = some c := by
  cases c with
  | rRegister a => revert a; decide
  | wRegister a => revert a; decide
  | wTxPayload => decide
  | rRxPayload => decide
  | flushTx => decide
  | flushRx => decide

/-- The count of a read is read back from its dummy bytes. -/
theorem readCount_dummies (capture : Bool) (count : Fin 6) :
    readCount capture (dummies capture count) = .ok count := by
  revert capture count; decide

end Sys2Proof
end

