-- ==== Sys2Proof/Laws/Operands.lean ====
section
/-! SUPPORT. The bits of the bytes the block composes: a byte is its eight bits, and what setBit and the single-bit
masks do to each. -/

namespace Sys2Proof.Machine

/-- Two bytes with the same eight bits are equal. -/
theorem byte_ext {x y : Byte} (h : ∀ k : BitPos, x.getLsbD k.toNat = y.getLsbD k.toNat) : x = y := by
  apply BitVec.eq_of_getLsbD_eq
  intro i hi
  have hk := h (BitVec.ofNat 3 i)
  rwa [BitVec.toNat_ofNat, Nat.mod_eq_of_lt hi] at hk

/-- The bits of a single-bit mask. -/
theorem getLsbD_bitMask (n k : BitPos) : (bitMask n).getLsbD k.toNat = decide (k = n) := by
  revert n k; decide

/-- The bits of a complement. -/
theorem getLsbD_not_byte (v : Byte) (k : BitPos) : (~~~ v).getLsbD k.toNat = ! v.getLsbD k.toNat := by
  have hk : k.toNat < 8 := by omega
  simp only [BitVec.getLsbD_not, hk, decide_true, Bool.true_and]

/-- The bits of setBit (41_register_access.md R102): the one it names is forced, the others are kept. -/
theorem getLsbD_setBit (v : Byte) (n k : BitPos) (s : Bool) :
    (setBit v n s).getLsbD k.toNat = if k = n then s else v.getLsbD k.toNat := by
  cases s <;> by_cases hk : k = n <;>
    simp only [setBit, BitVec.getLsbD_or, BitVec.getLsbD_and, getLsbD_not_byte, getLsbD_bitMask, hk, Bool.false_eq_true,
      if_true, if_false, decide_true, decide_false, Bool.or_true, Bool.or_false, Bool.not_true, Bool.not_false,
      Bool.and_true, Bool.and_false]

/-- The bits of a status byte after a STATUS write (20_memory.md R46, R54). -/
theorem getLsbD_clearFlags (m : ChipMap) (status d : Byte) (k : BitPos) :
    (clearFlags m status d).getLsbD k.toNat =
      (status.getLsbD k.toNat &&
        ! (d.getLsbD k.toNat && (decide (k = m.bitRxDr) || decide (k = m.bitTxDs) || decide (k = m.bitMaxRt)))) := by
  simp only [clearFlags, flagBits, rxDrMask, txDsMask, maxRtMask, BitVec.getLsbD_and, BitVec.getLsbD_or,
    getLsbD_not_byte, getLsbD_bitMask]

/-! ## Command bytes as the bits of the level S format table (30_encoding.md) -/

theorem rRegister_byte (a : RegAddr) : (BusCommand.rRegister a).byte = 0b000#3 ++ a := by revert a; decide

theorem wRegister_byte (a : RegAddr) : (BusCommand.wRegister a).byte = 0b001#3 ++ a := by revert a; decide

/-! ## The argument tests (60_exceptions.md R181) -/

theorem payloadLenOk_iff (n : BitVec 3) : payloadLenOk n = true ↔ 1 ≤ n.toNat ∧ n.toNat ≤ 5 := by
  rw [payloadLenOk, Bool.and_eq_true, decide_eq_true_eq, decide_eq_true_eq]; exact Iff.rfl

theorem readCountOk_iff (n : BitVec 3) : readCountOk n = true ↔ n.toNat ≤ 5 := by
  rw [readCountOk, decide_eq_true_eq]; exact Iff.rfl

theorem writeLenOk_iff (c : Config) (n : BitVec 3) : writeLenOk c n = true ↔ n.toNat ≤ c.maxWrLen.val := by
  simp [writeLenOk]

/-- The rates that are legal, with their selector bits (R123). -/
theorem rateBits_eq_some (rate : Byte) (lo hi : Bool) :
    rateBits rate = some (lo, hi) ↔
      (rate = 250#8 ∧ lo = true ∧ hi = false) ∨ (rate = 1#8 ∧ lo = false ∧ hi = false) ∨
        (rate = 2#8 ∧ lo = false ∧ hi = true) := by
  revert rate lo hi; decide

theorem rateBits_eq_none (rate : Byte) : rateBits rate = none ↔ rate ≠ 250#8 ∧ rate ≠ 1#8 ∧ rate ≠ 2#8 := by
  revert rate; decide

end Sys2Proof.Machine
end

