-- ==== Sys2Proof/Laws/State.lean ====
section
/-! SUPPORT. What each named operation leaves alone, one lemma per field, and what it writes. -/

namespace Sys2Proof.Machine

/-! ## emit -/

@[simp] theorem emit_cfg (e : Event) (s : State) : (emit e s).cfg = s.cfg := rfl
@[simp] theorem emit_rb (e : Event) (s : State) : (emit e s).rb = s.rb := rfl
@[simp] theorem emit_ce (e : Event) (s : State) : (emit e s).ce = s.ce := rfl
@[simp] theorem emit_csn (e : Event) (s : State) : (emit e s).csn = s.csn := rfl
@[simp] theorem emit_seq (e : Event) (s : State) : (emit e s).seq = s.seq := rfl
@[simp] theorem emit_rspCode (e : Event) (s : State) : (emit e s).rspCode = s.rspCode := rfl
@[simp] theorem emit_rspResult (e : Event) (s : State) : (emit e s).rspResult = s.rspResult := rfl
@[simp] theorem emit_payloadWidth (e : Event) (s : State) : (emit e s).payloadWidth = s.payloadWidth := rfl
@[simp] theorem emit_addrWidth (e : Event) (s : State) : (emit e s).addrWidth = s.addrWidth := rfl
@[simp] theorem emit_rxAddrCache (e : Event) (s : State) : (emit e s).rxAddrCache = s.rxAddrCache := rfl
@[simp] theorem emit_lastCfg (e : Event) (s : State) : (emit e s).lastCfg = s.lastCfg := rfl
@[simp] theorem emit_pending (e : Event) (s : State) : (emit e s).pending = s.pending := rfl
@[simp] theorem emit_responder (e : Event) (s : State) : (emit e s).responder = s.responder := rfl
@[simp] theorem emit_chanFaults (e : Event) (s : State) : (emit e s).chanFaults = s.chanFaults := rfl
@[simp] theorem emit_draws (e : Event) (s : State) : (emit e s).draws = s.draws := rfl

@[simp] theorem emit_trace (e : Event) (s : State) : (emit e s).trace = s.trace ++ [e] := rfl

/-! ## setControlLine -/

@[simp] theorem setControlLine_cfg (l : Line) (v : Level) (s : State) : (setControlLine l v s).cfg = s.cfg := by cases l <;> rfl
@[simp] theorem setControlLine_rb (l : Line) (v : Level) (s : State) : (setControlLine l v s).rb = s.rb := by cases l <;> rfl
@[simp] theorem setControlLine_seq (l : Line) (v : Level) (s : State) : (setControlLine l v s).seq = s.seq := by cases l <;> rfl
@[simp] theorem setControlLine_rspCode (l : Line) (v : Level) (s : State) : (setControlLine l v s).rspCode = s.rspCode := by cases l <;> rfl
@[simp] theorem setControlLine_rspResult (l : Line) (v : Level) (s : State) : (setControlLine l v s).rspResult = s.rspResult := by cases l <;> rfl
@[simp] theorem setControlLine_payloadWidth (l : Line) (v : Level) (s : State) : (setControlLine l v s).payloadWidth = s.payloadWidth := by cases l <;> rfl
@[simp] theorem setControlLine_addrWidth (l : Line) (v : Level) (s : State) : (setControlLine l v s).addrWidth = s.addrWidth := by cases l <;> rfl
@[simp] theorem setControlLine_rxAddrCache (l : Line) (v : Level) (s : State) : (setControlLine l v s).rxAddrCache = s.rxAddrCache := by cases l <;> rfl
@[simp] theorem setControlLine_lastCfg (l : Line) (v : Level) (s : State) : (setControlLine l v s).lastCfg = s.lastCfg := by cases l <;> rfl
@[simp] theorem setControlLine_pending (l : Line) (v : Level) (s : State) : (setControlLine l v s).pending = s.pending := by cases l <;> rfl
@[simp] theorem setControlLine_chanFaults (l : Line) (v : Level) (s : State) : (setControlLine l v s).chanFaults = s.chanFaults := by cases l <;> rfl
@[simp] theorem setControlLine_draws (l : Line) (v : Level) (s : State) : (setControlLine l v s).draws = s.draws := by cases l <;> rfl

@[simp] theorem setControlLine_trace (l : Line) (v : Level) (s : State) :
    (setControlLine l v s).trace = s.trace ++ [.line l v] := by cases l <;> rfl
@[simp] theorem setControlLine_ce_ce (v : Level) (s : State) : (setControlLine .ce v s).ce = v := rfl
@[simp] theorem setControlLine_ce_csn (v : Level) (s : State) : (setControlLine .ce v s).csn = s.csn := rfl
@[simp] theorem setControlLine_csn_ce (v : Level) (s : State) : (setControlLine .csn v s).ce = s.ce := rfl
@[simp] theorem setControlLine_csn_csn (v : Level) (s : State) : (setControlLine .csn v s).csn = v := rfl
@[simp] theorem setControlLine_ce_responder (v : Level) (s : State) :
    (setControlLine .ce v s).responder = s.responder := rfl
@[simp] theorem setControlLine_csn_responder (v : Level) (s : State) :
    (setControlLine .csn v s).responder = s.responder.onCsn s.cfg.map v := rfl

/-! ## delayMs -/

@[simp] theorem delayMs_cfg (ms : BitVec 32) (s : State) : (delayMs ms s).cfg = s.cfg := rfl
@[simp] theorem delayMs_rb (ms : BitVec 32) (s : State) : (delayMs ms s).rb = s.rb := rfl
@[simp] theorem delayMs_ce (ms : BitVec 32) (s : State) : (delayMs ms s).ce = s.ce := rfl
@[simp] theorem delayMs_csn (ms : BitVec 32) (s : State) : (delayMs ms s).csn = s.csn := rfl
@[simp] theorem delayMs_seq (ms : BitVec 32) (s : State) : (delayMs ms s).seq = s.seq := rfl
@[simp] theorem delayMs_rspCode (ms : BitVec 32) (s : State) : (delayMs ms s).rspCode = s.rspCode := rfl
@[simp] theorem delayMs_rspResult (ms : BitVec 32) (s : State) : (delayMs ms s).rspResult = s.rspResult := rfl
@[simp] theorem delayMs_payloadWidth (ms : BitVec 32) (s : State) : (delayMs ms s).payloadWidth = s.payloadWidth := rfl
@[simp] theorem delayMs_addrWidth (ms : BitVec 32) (s : State) : (delayMs ms s).addrWidth = s.addrWidth := rfl
@[simp] theorem delayMs_rxAddrCache (ms : BitVec 32) (s : State) : (delayMs ms s).rxAddrCache = s.rxAddrCache := rfl
@[simp] theorem delayMs_lastCfg (ms : BitVec 32) (s : State) : (delayMs ms s).lastCfg = s.lastCfg := rfl
@[simp] theorem delayMs_pending (ms : BitVec 32) (s : State) : (delayMs ms s).pending = s.pending := rfl
@[simp] theorem delayMs_responder (ms : BitVec 32) (s : State) : (delayMs ms s).responder = s.responder := rfl
@[simp] theorem delayMs_chanFaults (ms : BitVec 32) (s : State) : (delayMs ms s).chanFaults = s.chanFaults := rfl
@[simp] theorem delayMs_draws (ms : BitVec 32) (s : State) : (delayMs ms s).draws = s.draws := rfl

@[simp] theorem delayMs_trace (ms : BitVec 32) (s : State) : (delayMs ms s).trace = s.trace ++ [.delay ms] := rfl

/-! ## storeReply -/

@[simp] theorem storeReply_cfg (slot : Option (Fin 6)) (v : Byte) (s : State) : (storeReply slot v s).cfg = s.cfg := by cases slot <;> rfl
@[simp] theorem storeReply_ce (slot : Option (Fin 6)) (v : Byte) (s : State) : (storeReply slot v s).ce = s.ce := by cases slot <;> rfl
@[simp] theorem storeReply_csn (slot : Option (Fin 6)) (v : Byte) (s : State) : (storeReply slot v s).csn = s.csn := by cases slot <;> rfl
@[simp] theorem storeReply_seq (slot : Option (Fin 6)) (v : Byte) (s : State) : (storeReply slot v s).seq = s.seq := by cases slot <;> rfl
@[simp] theorem storeReply_rspCode (slot : Option (Fin 6)) (v : Byte) (s : State) : (storeReply slot v s).rspCode = s.rspCode := by cases slot <;> rfl
@[simp] theorem storeReply_rspResult (slot : Option (Fin 6)) (v : Byte) (s : State) : (storeReply slot v s).rspResult = s.rspResult := by cases slot <;> rfl
@[simp] theorem storeReply_payloadWidth (slot : Option (Fin 6)) (v : Byte) (s : State) : (storeReply slot v s).payloadWidth = s.payloadWidth := by cases slot <;> rfl
@[simp] theorem storeReply_addrWidth (slot : Option (Fin 6)) (v : Byte) (s : State) : (storeReply slot v s).addrWidth = s.addrWidth := by cases slot <;> rfl
@[simp] theorem storeReply_rxAddrCache (slot : Option (Fin 6)) (v : Byte) (s : State) : (storeReply slot v s).rxAddrCache = s.rxAddrCache := by cases slot <;> rfl
@[simp] theorem storeReply_lastCfg (slot : Option (Fin 6)) (v : Byte) (s : State) : (storeReply slot v s).lastCfg = s.lastCfg := by cases slot <;> rfl
@[simp] theorem storeReply_trace (slot : Option (Fin 6)) (v : Byte) (s : State) : (storeReply slot v s).trace = s.trace := by cases slot <;> rfl
@[simp] theorem storeReply_pending (slot : Option (Fin 6)) (v : Byte) (s : State) : (storeReply slot v s).pending = s.pending := by cases slot <;> rfl
@[simp] theorem storeReply_responder (slot : Option (Fin 6)) (v : Byte) (s : State) : (storeReply slot v s).responder = s.responder := by cases slot <;> rfl
@[simp] theorem storeReply_chanFaults (slot : Option (Fin 6)) (v : Byte) (s : State) : (storeReply slot v s).chanFaults = s.chanFaults := by cases slot <;> rfl
@[simp] theorem storeReply_draws (slot : Option (Fin 6)) (v : Byte) (s : State) : (storeReply slot v s).draws = s.draws := by cases slot <;> rfl

@[simp] theorem storeReply_none_rb (v : Byte) (s : State) : (storeReply none v s).rb = s.rb := rfl
@[simp] theorem storeReply_some_rb (i : Fin 6) (v : Byte) (s : State) :
    (storeReply (some i) v s).rb = s.rb.set i v := rfl

/-! ## useChannel -/

@[simp] theorem useChannel_cfg (s : State) : (useChannel s).cfg = s.cfg := rfl
@[simp] theorem useChannel_rb (s : State) : (useChannel s).rb = s.rb := rfl
@[simp] theorem useChannel_ce (s : State) : (useChannel s).ce = s.ce := rfl
@[simp] theorem useChannel_csn (s : State) : (useChannel s).csn = s.csn := rfl
@[simp] theorem useChannel_seq (s : State) : (useChannel s).seq = s.seq := rfl
@[simp] theorem useChannel_rspCode (s : State) : (useChannel s).rspCode = s.rspCode := rfl
@[simp] theorem useChannel_rspResult (s : State) : (useChannel s).rspResult = s.rspResult := rfl
@[simp] theorem useChannel_payloadWidth (s : State) : (useChannel s).payloadWidth = s.payloadWidth := rfl
@[simp] theorem useChannel_addrWidth (s : State) : (useChannel s).addrWidth = s.addrWidth := rfl
@[simp] theorem useChannel_rxAddrCache (s : State) : (useChannel s).rxAddrCache = s.rxAddrCache := rfl
@[simp] theorem useChannel_lastCfg (s : State) : (useChannel s).lastCfg = s.lastCfg := rfl
@[simp] theorem useChannel_trace (s : State) : (useChannel s).trace = s.trace := rfl
@[simp] theorem useChannel_pending (s : State) : (useChannel s).pending = s.pending := rfl
@[simp] theorem useChannel_responder (s : State) : (useChannel s).responder = s.responder := rfl

@[simp] theorem useChannel_chanFaults (s : State) :
    (useChannel s).chanFaults = if s.cfg.channelCanFault then s.chanFaults.tail else s.chanFaults := rfl
@[simp] theorem useChannel_draws (s : State) : (useChannel s).draws = s.draws + 1 := rfl

/-! ## exchange -/

@[simp] theorem exchange_cfg (b : Byte) (slot : Option (Fin 6)) (s : State) : (exchange b slot s).cfg = s.cfg := by cases slot <;> rfl
@[simp] theorem exchange_ce (b : Byte) (slot : Option (Fin 6)) (s : State) : (exchange b slot s).ce = s.ce := by cases slot <;> rfl
@[simp] theorem exchange_csn (b : Byte) (slot : Option (Fin 6)) (s : State) : (exchange b slot s).csn = s.csn := by cases slot <;> rfl
@[simp] theorem exchange_seq (b : Byte) (slot : Option (Fin 6)) (s : State) : (exchange b slot s).seq = s.seq := by cases slot <;> rfl
@[simp] theorem exchange_rspCode (b : Byte) (slot : Option (Fin 6)) (s : State) : (exchange b slot s).rspCode = s.rspCode := by cases slot <;> rfl
@[simp] theorem exchange_rspResult (b : Byte) (slot : Option (Fin 6)) (s : State) : (exchange b slot s).rspResult = s.rspResult := by cases slot <;> rfl
@[simp] theorem exchange_payloadWidth (b : Byte) (slot : Option (Fin 6)) (s : State) : (exchange b slot s).payloadWidth = s.payloadWidth := by cases slot <;> rfl
@[simp] theorem exchange_addrWidth (b : Byte) (slot : Option (Fin 6)) (s : State) : (exchange b slot s).addrWidth = s.addrWidth := by cases slot <;> rfl
@[simp] theorem exchange_rxAddrCache (b : Byte) (slot : Option (Fin 6)) (s : State) : (exchange b slot s).rxAddrCache = s.rxAddrCache := by cases slot <;> rfl
@[simp] theorem exchange_lastCfg (b : Byte) (slot : Option (Fin 6)) (s : State) : (exchange b slot s).lastCfg = s.lastCfg := by cases slot <;> rfl
@[simp] theorem exchange_pending (b : Byte) (slot : Option (Fin 6)) (s : State) : (exchange b slot s).pending = s.pending := by cases slot <;> rfl

@[simp] theorem exchange_trace (b : Byte) (slot : Option (Fin 6)) (s : State) :
    (exchange b slot s).trace = s.trace ++ [.xfer b (nextReply s)] := by cases slot <;> rfl
@[simp] theorem exchange_responder (b : Byte) (slot : Option (Fin 6)) (s : State) :
    (exchange b slot s).responder = s.responder.receive b := by cases slot <;> rfl
@[simp] theorem exchange_chanFaults (b : Byte) (slot : Option (Fin 6)) (s : State) :
    (exchange b slot s).chanFaults = if s.cfg.channelCanFault then s.chanFaults.tail else s.chanFaults := by
  cases slot <;> rfl
@[simp] theorem exchange_draws (b : Byte) (slot : Option (Fin 6)) (s : State) :
    (exchange b slot s).draws = s.draws + 1 := by cases slot <;> rfl
@[simp] theorem exchange_none_rb (b : Byte) (s : State) : (exchange b none s).rb = s.rb := rfl
@[simp] theorem exchange_some_rb (b : Byte) (i : Fin 6) (s : State) :
    (exchange b (some i) s).rb = s.rb.set i (nextReply s) := rfl

/-! ## drawResult -/

@[simp] theorem drawResult_cfg (s : State) : (drawResult s).cfg = s.cfg := rfl
@[simp] theorem drawResult_rb (s : State) : (drawResult s).rb = s.rb := rfl
@[simp] theorem drawResult_ce (s : State) : (drawResult s).ce = s.ce := rfl
@[simp] theorem drawResult_csn (s : State) : (drawResult s).csn = s.csn := rfl
@[simp] theorem drawResult_seq (s : State) : (drawResult s).seq = s.seq := rfl
@[simp] theorem drawResult_rspCode (s : State) : (drawResult s).rspCode = s.rspCode := rfl
@[simp] theorem drawResult_payloadWidth (s : State) : (drawResult s).payloadWidth = s.payloadWidth := rfl
@[simp] theorem drawResult_addrWidth (s : State) : (drawResult s).addrWidth = s.addrWidth := rfl
@[simp] theorem drawResult_rxAddrCache (s : State) : (drawResult s).rxAddrCache = s.rxAddrCache := rfl
@[simp] theorem drawResult_lastCfg (s : State) : (drawResult s).lastCfg = s.lastCfg := rfl
@[simp] theorem drawResult_trace (s : State) : (drawResult s).trace = s.trace := rfl
@[simp] theorem drawResult_pending (s : State) : (drawResult s).pending = s.pending := rfl
@[simp] theorem drawResult_responder (s : State) : (drawResult s).responder = s.responder := rfl
@[simp] theorem drawResult_chanFaults (s : State) : (drawResult s).chanFaults = s.chanFaults := rfl

/-! ## raise -/

@[simp] theorem raise_cfg (e : Exc) (s : State) : (raise e s).cfg = s.cfg := by cases e <;> rfl
@[simp] theorem raise_rb (e : Exc) (s : State) : (raise e s).rb = s.rb := by cases e <;> rfl
@[simp] theorem raise_ce (e : Exc) (s : State) : (raise e s).ce = s.ce := by cases e <;> rfl
@[simp] theorem raise_csn (e : Exc) (s : State) : (raise e s).csn = s.csn := by cases e <;> rfl
@[simp] theorem raise_payloadWidth (e : Exc) (s : State) : (raise e s).payloadWidth = s.payloadWidth := by cases e <;> rfl
@[simp] theorem raise_addrWidth (e : Exc) (s : State) : (raise e s).addrWidth = s.addrWidth := by cases e <;> rfl
@[simp] theorem raise_rxAddrCache (e : Exc) (s : State) : (raise e s).rxAddrCache = s.rxAddrCache := by cases e <;> rfl
@[simp] theorem raise_lastCfg (e : Exc) (s : State) : (raise e s).lastCfg = s.lastCfg := by cases e <;> rfl
@[simp] theorem raise_trace (e : Exc) (s : State) : (raise e s).trace = s.trace := by cases e <;> rfl
@[simp] theorem raise_pending (e : Exc) (s : State) : (raise e s).pending = s.pending := by cases e <;> rfl
@[simp] theorem raise_responder (e : Exc) (s : State) : (raise e s).responder = s.responder := by cases e <;> rfl
@[simp] theorem raise_chanFaults (e : Exc) (s : State) : (raise e s).chanFaults = s.chanFaults := by cases e <;> rfl

@[simp] theorem raise_seq (e : Exc) (s : State) : (raise e s).seq = .idle := by cases e <;> rfl
@[simp] theorem raise_invalidArgument_rspCode (s : State) : (raise .invalidArgument s).rspCode = .invalidArg := rfl
@[simp] theorem raise_channelFault_rspCode (s : State) : (raise .channelFault s).rspCode = .channelFault := rfl
@[simp] theorem raise_invalidOpcode_rspCode (s : State) : (raise .invalidOpcode s).rspCode = .invalidOp := rfl
@[simp] theorem raise_invalidOpcode_rspResult (s : State) : (raise .invalidOpcode s).rspResult = s.rspResult := rfl

/-! ## complete -/

@[simp] theorem complete_cfg (f : Finish) (s : State) : (complete f s).cfg = s.cfg := by cases f <;> rfl
@[simp] theorem complete_rb (f : Finish) (s : State) : (complete f s).rb = s.rb := by cases f <;> rfl
@[simp] theorem complete_ce (f : Finish) (s : State) : (complete f s).ce = s.ce := by cases f <;> rfl
@[simp] theorem complete_csn (f : Finish) (s : State) : (complete f s).csn = s.csn := by cases f <;> rfl
@[simp] theorem complete_payloadWidth (f : Finish) (s : State) : (complete f s).payloadWidth = s.payloadWidth := by cases f <;> rfl
@[simp] theorem complete_addrWidth (f : Finish) (s : State) : (complete f s).addrWidth = s.addrWidth := by cases f <;> rfl
@[simp] theorem complete_rxAddrCache (f : Finish) (s : State) : (complete f s).rxAddrCache = s.rxAddrCache := by cases f <;> rfl
@[simp] theorem complete_lastCfg (f : Finish) (s : State) : (complete f s).lastCfg = s.lastCfg := by cases f <;> rfl
@[simp] theorem complete_trace (f : Finish) (s : State) : (complete f s).trace = s.trace := by cases f <;> rfl
@[simp] theorem complete_pending (f : Finish) (s : State) : (complete f s).pending = s.pending := by cases f <;> rfl
@[simp] theorem complete_responder (f : Finish) (s : State) : (complete f s).responder = s.responder := by cases f <;> rfl
@[simp] theorem complete_chanFaults (f : Finish) (s : State) : (complete f s).chanFaults = s.chanFaults := by cases f <;> rfl

@[simp] theorem complete_seq (f : Finish) (s : State) : (complete f s).seq = .idle := by cases f <;> rfl
@[simp] theorem complete_ok_rspCode (s : State) : (complete .ok s).rspCode = .ok := rfl
@[simp] theorem complete_okByte_rspCode (v : Byte) (s : State) : (complete (.okByte v) s).rspCode = .ok := rfl
@[simp] theorem complete_okByte_rspResult (v : Byte) (s : State) : (complete (.okByte v) s).rspResult = v := rfl
@[simp] theorem complete_okSlot_rspCode (i : Fin 6) (s : State) : (complete (.okSlot i) s).rspCode = .ok := rfl
@[simp] theorem complete_okSlot_rspResult (i : Fin 6) (s : State) :
    (complete (.okSlot i) s).rspResult = s.rb[i] := rfl
@[simp] theorem complete_bus_rspCode (s : State) : (complete .bus s).rspCode = s.rspCode := rfl
@[simp] theorem complete_bus_rspResult (s : State) : (complete .bus s).rspResult = s.rspResult := rfl
@[simp] theorem complete_channelFault_rspCode (s : State) :
    (complete .channelFault s).rspCode = .channelFault := rfl

/-! ## accept -/

@[simp] theorem accept_cfg (cmd : Instr) (plan : List Action) (fin : Finish) (s : State) : (accept cmd plan fin s).cfg = s.cfg := rfl
@[simp] theorem accept_rb (cmd : Instr) (plan : List Action) (fin : Finish) (s : State) : (accept cmd plan fin s).rb = s.rb := rfl
@[simp] theorem accept_ce (cmd : Instr) (plan : List Action) (fin : Finish) (s : State) : (accept cmd plan fin s).ce = s.ce := rfl
@[simp] theorem accept_csn (cmd : Instr) (plan : List Action) (fin : Finish) (s : State) : (accept cmd plan fin s).csn = s.csn := rfl
@[simp] theorem accept_rspCode (cmd : Instr) (plan : List Action) (fin : Finish) (s : State) : (accept cmd plan fin s).rspCode = s.rspCode := rfl
@[simp] theorem accept_rspResult (cmd : Instr) (plan : List Action) (fin : Finish) (s : State) : (accept cmd plan fin s).rspResult = s.rspResult := rfl
@[simp] theorem accept_payloadWidth (cmd : Instr) (plan : List Action) (fin : Finish) (s : State) : (accept cmd plan fin s).payloadWidth = s.payloadWidth := rfl
@[simp] theorem accept_addrWidth (cmd : Instr) (plan : List Action) (fin : Finish) (s : State) : (accept cmd plan fin s).addrWidth = s.addrWidth := rfl
@[simp] theorem accept_rxAddrCache (cmd : Instr) (plan : List Action) (fin : Finish) (s : State) : (accept cmd plan fin s).rxAddrCache = s.rxAddrCache := rfl
@[simp] theorem accept_lastCfg (cmd : Instr) (plan : List Action) (fin : Finish) (s : State) : (accept cmd plan fin s).lastCfg = s.lastCfg := rfl
@[simp] theorem accept_pending (cmd : Instr) (plan : List Action) (fin : Finish) (s : State) : (accept cmd plan fin s).pending = s.pending := rfl
@[simp] theorem accept_responder (cmd : Instr) (plan : List Action) (fin : Finish) (s : State) : (accept cmd plan fin s).responder = s.responder := rfl
@[simp] theorem accept_chanFaults (cmd : Instr) (plan : List Action) (fin : Finish) (s : State) : (accept cmd plan fin s).chanFaults = s.chanFaults := rfl
@[simp] theorem accept_draws (cmd : Instr) (plan : List Action) (fin : Finish) (s : State) : (accept cmd plan fin s).draws = s.draws := rfl

@[simp] theorem accept_seq (cmd : Instr) (plan : List Action) (fin : Finish) (s : State) :
    (accept cmd plan fin s).seq = .running cmd 0 plan fin := rfl
@[simp] theorem accept_trace (cmd : Instr) (plan : List Action) (fin : Finish) (s : State) :
    (accept cmd plan fin s).trace = [] := rfl

end Sys2Proof.Machine
end

