-- ==== Sys2Proof/Laws/Sequencer.lean ====
section
/-! SUPPORT. What running actions does, said once: without a failing transfer it performs them in order and delivers
the response; what one action can change; and what the transfers of a transaction body leave. -/

namespace Sys2Proof.Machine

/-! ## The channel -/

/-- The number of transfers among some actions. -/
def xferCount : List Action → Nat
  | [] => 0
  | .xfer _ _ :: as => xferCount as + 1
  | .setLine _ _ :: as => xferCount as
  | .delay _ :: as => xferCount as
  | .setPayloadWidth _ :: as => xferCount as
  | .setLastCfg _ _ :: as => xferCount as

theorem xferCount_append (as bs : List Action) : xferCount (as ++ bs) = xferCount as + xferCount bs := by
  induction as with
  | nil => simp [xferCount]
  | cons a as ih => cases a <;> simp [xferCount, ih, Nat.add_right_comm]

/-- Whether the channel holds depends on the build and on `chanFaults` only. -/
theorem ChannelHolds.congr {s t : State} {n : Nat} (hc : t.cfg = s.cfg) (hf : t.chanFaults = s.chanFaults)
    (h : ChannelHolds s n) : ChannelHolds t n := by
  simpa [ChannelHolds, hc, hf] using h

theorem ChannelHolds.mono {s : State} {m n : Nat} (hmn : m ≤ n) (h : ChannelHolds s n) : ChannelHolds s m := by
  rcases h with h | ⟨more, h⟩
  · exact .inl h
  · exact .inr ⟨List.replicate (n - m) false ++ more, by
      rw [h, ← List.append_assoc, List.replicate_append_replicate]; congr; omega⟩

theorem ChannelHolds.not_fails {s : State} {n : Nat} (h : ChannelHolds s (n + 1)) : transferFails s = false := by
  rcases h with h | ⟨more, h⟩
  · simp [transferFails, h]
  · simp [transferFails, h, List.replicate_succ]

theorem ChannelHolds.exchange {s : State} {n : Nat} (b : Byte) (slot : Option (Fin 6)) (h : ChannelHolds s (n + 1)) :
    ChannelHolds (exchange b slot s) n := by
  rcases h with h | ⟨more, h⟩
  · exact .inl (by simpa using h)
  · cases hc : s.cfg.channelCanFault
    · exact .inl (by simpa using hc)
    · exact .inr ⟨more, by simp [hc, h, List.replicate_succ]⟩

/-! ## One action -/

/-- An action that is no transfer leaves the channel as it is. -/
theorem perform_chanFaults_of_not_xfer (s : State) (a : Action) (h : xferCount [a] = 0) :
    (a.perform s).chanFaults = s.chanFaults := by
  cases a <;> simp_all [Action.perform, xferCount]

@[simp] theorem perform_cfg (s : State) (a : Action) : (a.perform s).cfg = s.cfg := by
  cases a <;> simp [Action.perform]

@[simp] theorem perform_seq (s : State) (a : Action) : (a.perform s).seq = s.seq := by
  cases a <;> simp [Action.perform]

@[simp] theorem perform_pending (s : State) (a : Action) : (a.perform s).pending = s.pending := by
  cases a <;> simp [Action.perform]

@[simp] theorem perform_rspCode (s : State) (a : Action) : (a.perform s).rspCode = s.rspCode := by
  cases a <;> simp [Action.perform]

@[simp] theorem perform_rspResult (s : State) (a : Action) : (a.perform s).rspResult = s.rspResult := by
  cases a <;> simp [Action.perform]

@[simp] theorem perform_addrWidth (s : State) (a : Action) : (a.perform s).addrWidth = s.addrWidth := by
  cases a <;> simp [Action.perform]

@[simp] theorem perform_rxAddrCache (s : State) (a : Action) : (a.perform s).rxAddrCache = s.rxAddrCache := by
  cases a <;> simp [Action.perform]

/-- An action emits one event if it is an event, and none otherwise. -/
theorem perform_trace_length (s : State) (a : Action) :
    (a.perform s).trace.length = s.trace.length + if a.isEvent then 1 else 0 := by
  cases a <;> simp [Action.perform, Action.isEvent]

/-! ## Running actions -/

/-- The state after some actions, none of which fails. -/
def performAll (as : List Action) (s : State) : State := as.foldl (fun s a => a.perform s) s

@[simp] theorem performAll_nil (s : State) : performAll [] s = s := rfl

@[simp] theorem performAll_cons (a : Action) (as : List Action) (s : State) :
    performAll (a :: as) s = performAll as (a.perform s) := rfl

theorem performAll_append (as bs : List Action) (s : State) :
    performAll (as ++ bs) s = performAll bs (performAll as s) := by
  simp [performAll]

/-- Running actions none of which fails performs them and delivers the response. -/
theorem runActions_eq_complete (as : List Action) (fin : Finish) (s : State) (h : ChannelHolds s (xferCount as)) :
    runActions as fin s = complete fin (performAll as s) := by
  induction as generalizing s with
  | nil => rfl
  | cons a as ih =>
    cases a with
    | xfer src slot =>
      have hf : transferFails s = false := ChannelHolds.not_fails (n := xferCount as) h
      have h' : ChannelHolds (Action.perform s (.xfer src slot)) (xferCount as) :=
        ChannelHolds.exchange _ slot h
      simp [runActions, Action.fails, hf, ih _ h']
    | setLine l v =>
      have h' : ChannelHolds (Action.perform s (.setLine l v)) (xferCount as) :=
        ChannelHolds.congr (by simp) (by simp [Action.perform]) h
      simp [runActions, Action.fails, ih _ h']
    | delay ms =>
      have h' : ChannelHolds (Action.perform s (.delay ms)) (xferCount as) :=
        ChannelHolds.congr (by simp) (by simp [Action.perform]) h
      simp [runActions, Action.fails, ih _ h']
    | setPayloadWidth w =>
      have h' : ChannelHolds (Action.perform s (.setPayloadWidth w)) (xferCount as) :=
        ChannelHolds.congr (by simp) (by simp [Action.perform]) h
      simp [runActions, Action.fails, ih _ h']
    | setLastCfg rx pw =>
      have h' : ChannelHolds (Action.perform s (.setLastCfg rx pw)) (xferCount as) :=
        ChannelHolds.congr (by simp) (by simp [Action.perform]) h
      simp [runActions, Action.fails, ih _ h']

/-- A command none of whose transfers fails. -/
theorem runCommand_eq_complete (cmd : Instr) (as : List Action) (fin : Finish) (s : State)
    (h : ChannelHolds s (xferCount as)) :
    runCommand cmd as fin s = complete fin (performAll as (accept cmd as fin s)) :=
  runActions_eq_complete as fin _ (ChannelHolds.congr rfl rfl h)

/-- Running actions in two parts, the first of which does not fail. -/
theorem runActions_append (as bs : List Action) (fin : Finish) (s : State) (h : ChannelHolds s (xferCount as)) :
    runActions (as ++ bs) fin s = runActions bs fin (performAll as s) := by
  induction as generalizing s with
  | nil => rfl
  | cons a as ih =>
    cases a with
    | xfer src slot =>
      have hf : transferFails s = false := ChannelHolds.not_fails (n := xferCount as) h
      simp [runActions, Action.fails, hf, ih _ (ChannelHolds.exchange _ slot h), Action.perform]
    | setLine l v =>
      have h' : ChannelHolds (Action.perform s (.setLine l v)) (xferCount as) :=
        ChannelHolds.congr (by simp) (by simp [Action.perform]) h
      simp [runActions, Action.fails, ih _ h']
    | delay ms =>
      have h' : ChannelHolds (Action.perform s (.delay ms)) (xferCount as) :=
        ChannelHolds.congr (by simp) (by simp [Action.perform]) h
      simp [runActions, Action.fails, ih _ h']
    | setPayloadWidth w =>
      have h' : ChannelHolds (Action.perform s (.setPayloadWidth w)) (xferCount as) :=
        ChannelHolds.congr (by simp) (by simp [Action.perform]) h
      simp [runActions, Action.fails, ih _ h']
    | setLastCfg rx pw =>
      have h' : ChannelHolds (Action.perform s (.setLastCfg rx pw)) (xferCount as) :=
        ChannelHolds.congr (by simp) (by simp [Action.perform]) h
      simp [runActions, Action.fails, ih _ h']

/-! ## The transfers of a transaction body -/

/-- A body of transfers, from the bytes and the slots of their replies. -/
def xfers (l : List (Byte × Option (Fin 6))) : List Action := l.map fun p => .xfer (.const p.1) p.2

/-- The replies to a body, in order. -/
def bodyReplies : List (Byte × Option (Fin 6)) → State → List Byte
  | [], _ => []
  | p :: l, s => nextReply s :: bodyReplies l (exchange p.1 p.2 s)

/-- What a body leaves in the read buffer. -/
def storeReplies : List (Option (Fin 6)) → List Byte → Vector Byte 6 → Vector Byte 6
  | some i :: is, v :: vs, rb => storeReplies is vs (rb.set i v)
  | none :: is, _ :: vs, rb => storeReplies is vs rb
  | [], _, rb => rb
  | _ :: _, [], rb => rb

@[simp] theorem length_bodyReplies (l : List (Byte × Option (Fin 6))) (s : State) :
    (bodyReplies l s).length = l.length := by
  induction l generalizing s with
  | nil => rfl
  | cons p l ih => simp [bodyReplies, ih]

@[simp] theorem xferCount_xfers (l : List (Byte × Option (Fin 6))) : xferCount (xfers l) = l.length := by
  induction l with
  | nil => rfl
  | cons p l ih => simpa [xfers, xferCount] using ih

/-- A body of transfers: the events, the read buffer, and the frame. -/
theorem performAll_xfers (l : List (Byte × Option (Fin 6))) (s : State) :
    performAll (xfers l) s =
      { s with
        trace := s.trace ++ List.zipWith Event.xfer (l.map Prod.fst) (bodyReplies l s)
        rb := storeReplies (l.map Prod.snd) (bodyReplies l s) s.rb
        responder := (performAll (xfers l) s).responder
        chanFaults := (performAll (xfers l) s).chanFaults
        draws := (performAll (xfers l) s).draws } := by
  induction l generalizing s with
  | nil => simp [xfers, storeReplies, bodyReplies]
  | cons p l ih =>
    obtain ⟨b, slot⟩ := p
    have hstep : performAll (xfers ((b, slot) :: l)) s = performAll (xfers l) (exchange b slot s) := rfl
    rw [hstep, ih (exchange b slot s)]
    cases slot <;>
      simp [bodyReplies, storeReplies, exchange, storeReply, emit, useChannel]

/-- A whole transaction: CSN ends High, the trace grows by its events, the replies are stored, and nothing else of the
block changes. -/
theorem performAll_transaction (l : List (Byte × Option (Fin 6))) (s : State) :
    performAll (withTransaction (xfers l)) s =
      { s with
        csn := .high
        trace := s.trace ++ transaction (l.map Prod.fst) (bodyReplies l (setControlLine .csn .low s))
        rb := storeReplies (l.map Prod.snd) (bodyReplies l (setControlLine .csn .low s)) s.rb
        responder := (performAll (withTransaction (xfers l)) s).responder
        chanFaults := (performAll (withTransaction (xfers l)) s).chanFaults
        draws := (performAll (withTransaction (xfers l)) s).draws } := by
  have h : performAll (withTransaction (xfers l)) s =
      setControlLine .csn .high (performAll (xfers l) (setControlLine .csn .low s)) := by
    simp [withTransaction, performAll_append, Action.perform]
  rw [h, performAll_xfers l (setControlLine .csn .low s)]
  simp [setControlLine, emit, transaction]

/-! ## The transactions of the block as bodies of transfers -/

/-- Bytes whose replies are discarded. -/
def discarded (bytes : List Byte) : List (Byte × Option (Fin 6)) := bytes.map fun b => (b, none)

@[simp] theorem discarded_fst (bytes : List Byte) : (discarded bytes).map Prod.fst = bytes := by
  simp [discarded, Function.comp_def]

/-- Discarded replies leave the read buffer as it is. -/
theorem storeReplies_discarded (bytes vs : List Byte) (rb : Vector Byte 6) :
    storeReplies ((discarded bytes).map Prod.snd) vs rb = rb := by
  induction bytes generalizing vs with
  | nil => simp [discarded, storeReplies]
  | cons b bytes ih => cases vs <;> simp_all [discarded, storeReplies]

theorem writePlan_eq (a : RegAddr) (bytes : List Byte) :
    writePlan a bytes = withTransaction (xfers (discarded ((BusCommand.wRegister a).byte :: bytes))) := by
  simp only [writePlan, xfers, discarded, List.map_map, List.map_cons]; rfl

theorem txPayloadPlan_eq (data : List Byte) :
    txPayloadPlan data = withTransaction (xfers (discarded (BusCommand.wTxPayload.byte :: data))) := by
  simp only [txPayloadPlan, xfers, discarded, List.map_map, List.map_cons]; rfl

theorem flushTxPlan_eq : flushTxPlan = withTransaction (xfers (discarded [BusCommand.flushTx.byte])) := rfl

theorem flushRxPlan_eq : flushRxPlan = withTransaction (xfers (discarded [BusCommand.flushRx.byte])) := rfl

/-- The transfers of a read and the slots of their replies (R101, R141). -/
def readList (capture : Bool) (cmd : Byte) (count : Nat) : List (Byte × Option (Fin 6)) :=
  if capture then (cmd, some 0) :: ((slots.take (count + 1)).drop 1).map fun i => (Config.dummy, some i)
  else (cmd, none) :: (slots.take (count + 1)).map fun i => (Config.dummy, some i)

theorem readBody_eq (cfg : Config) (cmd : Byte) (count : Nat) :
    readBody cfg cmd count = xfers (readList cfg.rdCaptureCmd cmd count) := by
  cases h : cfg.rdCaptureCmd <;> simp [readBody, readList, xfers, h, send, Function.comp_def]

theorem readPlan_eq (cfg : Config) (a : RegAddr) (count : Nat) :
    readPlan cfg a count =
      withTransaction (xfers (readList cfg.rdCaptureCmd (BusCommand.rRegister a).byte count)) := by
  rw [readPlan, readBody_eq]

theorem rxPayloadPlan_eq (cfg : Config) (count : Nat) :
    rxPayloadPlan cfg count =
      withTransaction (xfers (readList cfg.rdCaptureCmd BusCommand.rRxPayload.byte count)) := by
  rw [rxPayloadPlan, readBody_eq]

/-- A read of at most five content bytes sends its command byte and the dummies of R75. -/
theorem readList_fst (capture : Bool) (cmd : Byte) (count : Nat) (h : count ≤ 5) :
    (readList capture cmd count).map Prod.fst = cmd :: dummies capture count := by
  have hc : count = 0 ∨ count = 1 ∨ count = 2 ∨ count = 3 ∨ count = 4 ∨ count = 5 := by omega
  rcases hc with rfl | rfl | rfl | rfl | rfl | rfl <;> cases capture <;> rfl

theorem readList_length (capture : Bool) (cmd : Byte) (count : Nat) (h : count ≤ 5) :
    (readList capture cmd count).length = if capture then count + 1 else count + 2 := by
  have := congrArg List.length (readList_fst capture cmd count h)
  cases capture <;> simpa [dummies] using this

/-- What a read stores is what `Captured` says. -/
theorem captured_readList (cfg : Config) (cmd : Byte) (count : Nat) (h : count ≤ 5) (miso : List Byte)
    (hm : miso.length = (readList cfg.rdCaptureCmd cmd count).length) (rb : Vector Byte 6) :
    Captured cfg count miso rb (storeReplies ((readList cfg.rdCaptureCmd cmd count).map Prod.snd) miso rb) := by
  rw [readList_length _ _ _ h] at hm
  have hc : count = 0 ∨ count = 1 ∨ count = 2 ∨ count = 3 ∨ count = 4 ∨ count = 5 := by omega
  cases hcap : cfg.rdCaptureCmd <;> rw [hcap] at hm <;>
    rcases hc with rfl | rfl | rfl | rfl | rfl | rfl <;>
    (simp at hm
     rcases miso with _ | ⟨r0, _ | ⟨r1, _ | ⟨r2, _ | ⟨r3, _ | ⟨r4, _ | ⟨r5, _ | ⟨r6, l⟩⟩⟩⟩⟩⟩⟩ <;> simp at hm
     try subst hm
     intro i
     fin_cases i <;> simp [readList, slots, storeReplies, hcap])

/-- The number of transfers of a transaction. -/
@[simp] theorem xferCount_transaction (l : List (Byte × Option (Fin 6))) :
    xferCount (withTransaction (xfers l)) = l.length := by
  have h : withTransaction (xfers l) = [.setLine .csn .low] ++ xfers l ++ [.setLine .csn .high] := rfl
  rw [h, xferCount_append, xferCount_append]
  simp [xferCount]

/-- The same with the replies and what the environment is left as named: the form proofs take apart. -/
theorem transaction_ran (l : List (Byte × Option (Fin 6))) (s : State) :
    ∃ miso r c d, miso.length = l.length ∧
      performAll (withTransaction (xfers l)) s =
        { s with
          csn := .high
          trace := s.trace ++ transaction (l.map Prod.fst) miso
          rb := storeReplies (l.map Prod.snd) miso s.rb
          responder := r
          chanFaults := c
          draws := d } :=
  ⟨_, _, _, _, length_bodyReplies _ _, performAll_transaction l s⟩

/-- A transaction that discards its replies. -/
theorem discarding_ran (bytes : List Byte) (s : State) :
    ∃ miso r c d, miso.length = bytes.length ∧
      performAll (withTransaction (xfers (discarded bytes))) s =
        { s with
          csn := .high, trace := s.trace ++ transaction bytes miso, responder := r, chanFaults := c, draws := d } := by
  obtain ⟨miso, r, c, d, hm, h⟩ := transaction_ran (discarded bytes) s
  refine ⟨miso, r, c, d, by simpa [discarded] using hm, ?_⟩
  rw [h, storeReplies_discarded, discarded_fst]

/-- A transaction that reads. -/
theorem reading_ran (cmd : Byte) (count : Nat) (hn : count ≤ 5) (s : State) :
    ∃ miso rb r c d, miso.length = (if s.cfg.rdCaptureCmd then count + 1 else count + 2) ∧
      Captured s.cfg count miso s.rb rb ∧
      performAll (withTransaction (xfers (readList s.cfg.rdCaptureCmd cmd count))) s =
        { s with
          csn := .high, trace := s.trace ++ transaction (cmd :: dummies s.cfg.rdCaptureCmd count) miso, rb := rb,
          responder := r, chanFaults := c, draws := d } := by
  obtain ⟨miso, r, c, d, hm, h⟩ := transaction_ran (readList s.cfg.rdCaptureCmd cmd count) s
  refine ⟨miso, _, r, c, d, by rw [hm, readList_length _ _ _ hn],
    captured_readList s.cfg cmd count hn miso hm s.rb, ?_⟩
  rw [h, readList_fst _ _ _ hn]

/-- The transaction of setDataRate's write (R123): its data byte is computed from `RB[1]` as it stands. -/
theorem rateWrite_ran (a : RegAddr) (lo hi : Bool) (s : State) :
    ∃ miso r c d, miso.length = 2 ∧
      performAll (withTransaction [send (BusCommand.wRegister a).byte, .xfer (.rate lo hi) none]) s =
        { s with
          csn := .high
          trace := s.trace ++ transaction [(BusCommand.wRegister a).byte, rateByte s.cfg.map s.rb[1] lo hi] miso
          responder := r
          chanFaults := c
          draws := d } := by
  let s₁ := setControlLine .csn .low s
  let t := performAll (withTransaction [send (BusCommand.wRegister a).byte, .xfer (.rate lo hi) none]) s
  refine ⟨[nextReply s₁, nextReply (exchange (BusCommand.wRegister a).byte none s₁)],
    t.responder, t.chanFaults, t.draws, rfl, ?_⟩
  simp [t, s₁, withTransaction, Action.perform, send, ByteSource.value, setControlLine, exchange, emit, useChannel,
    storeReply, transaction]

end Sys2Proof.Machine
end

