-- ==== Sys2Proof/Laws/Exec.lean ====
section
/-! SUPPORT. What an instruction does, said once: it is rejected before its first event, or it runs one list of
actions, which depends on the build alone. Facts about all instructions are proved from `exec_eq`, with no meaning
unfolded. -/

namespace Sys2Proof.Machine

/-- The actions of an instruction and how it ends, or the exception it is rejected with. -/
def planOf (cfg : Config) : Instr → Except Exc (List Action × Finish)
  | .writeRegister a n data => if writeLenOk cfg n then .ok (writePlan a data, .ok) else .error .invalidArgument
  | .readRegister a n => if readCountOk n then .ok (readPlan cfg a n.toNat, .ok) else .error .invalidArgument
  | .setBit v n isSet => .ok ([], .okByte (setBit v n isSet))
  | .configure rx pw => .ok (configurePlan cfg.map rx pw, .ok)
  | .enterTx => .ok (configurePlan cfg.map false true ++ [.setLine .ce .low], .ok)
  | .enterRx => .ok (configurePlan cfg.map true true ++ [.setLine .ce .high], .ok)
  | .setDataRate rate =>
    match rateBits rate with
    | some (lo, hi) => .ok (setDataRatePlan cfg lo hi, .ok)
    | none => .error .invalidArgument
  | .configurePipes mask width =>
    .ok (writePlan cfg.map.addrEnRxaddr [mask] ++ writePlan cfg.map.addrRxPwP0 [width] ++ [.setPayloadWidth width], .ok)
  | .transmit n data =>
    if payloadLenOk n then .ok (txPayloadPlan data ++ cePulse cfg, .ok) else .error .invalidArgument
  | .receive n =>
    if payloadLenOk n then .ok (.setLine .ce .low :: rxPayloadPlan cfg n.toNat ++ [.setLine .ce .high], .ok)
    else .error .invalidArgument
  | .flushTx => .ok (flushTxPlan, .ok)
  | .flushRx => .ok (flushRxPlan, .ok)
  | .respondIrq => .ok (readPlan cfg cfg.map.addrStatus 1 ++ clearInterruptsPlan cfg.map, .okSlot 0)
  | .clearIrq => .ok (clearInterruptsPlan cfg.map, .ok)
  | .reservedE => .error .invalidOpcode
  | .reservedF => .error .invalidOpcode
  | .opcRRegister a count => .ok (readPlan cfg a count, .bus)
  | .opcWRegister a data => .ok (writePlan a data, .bus)
  | .opcWTxPayload data => .ok (txPayloadPlan data, .bus)
  | .opcRRxPayload count => .ok (rxPayloadPlan cfg count, .bus)
  | .opcFlushTx => .ok (flushTxPlan, .bus)
  | .opcFlushRx => .ok (flushRxPlan, .bus)

/-- The state an instruction ends in. -/
def outcome (i : Instr) (s : State) : State :=
  match planOf s.cfg i with
  | .ok (plan, fin) => runCommand i plan fin s
  | .error e => reject e s

/-- Every instruction answers, with the state its actions leave. -/
theorem exec_eq (i : Instr) (s : State) : exec i s = .next (outcome i s) := by
  cases i with
  | writeRegister a n data => simp only [exec, execWriteRegister, outcome, planOf]; split <;> rfl
  | readRegister a n => simp only [exec, execReadRegister, outcome, planOf]; split <;> rfl
  | setBit v n isSet => rfl
  | configure rx pw => rfl
  | enterTx => rfl
  | enterRx => rfl
  | setDataRate rate => simp only [exec, execSetDataRate, outcome, planOf]; rcases rateBits rate with _ | ⟨lo, hi⟩ <;> rfl
  | configurePipes mask width => rfl
  | transmit n data => simp only [exec, execTransmit, outcome, planOf]; split <;> rfl
  | receive n => simp only [exec, execReceive, outcome, planOf]; split <;> rfl
  | flushTx => rfl
  | flushRx => rfl
  | respondIrq => rfl
  | clearIrq => rfl
  | reservedE => rfl
  | reservedF => rfl
  | opcRRegister a count => rfl
  | opcWRegister a data => rfl
  | opcWTxPayload data => rfl
  | opcRRxPayload count => rfl
  | opcFlushTx => rfl
  | opcFlushRx => rfl

/-- An instruction that is rejected. -/
theorem outcome_error {i : Instr} {s : State} {e : Exc} (h : planOf s.cfg i = .error e) : outcome i s = reject e s := by
  simp [outcome, h]

/-- An instruction that runs its actions. -/
theorem outcome_ok {i : Instr} {s : State} {plan : List Action} {fin : Finish} (h : planOf s.cfg i = .ok (plan, fin)) :
    outcome i s = runCommand i plan fin s := by
  simp [outcome, h]

/-- What running actions keeps: whatever every action, the use of the channel and the response keep. -/
theorem runActions_keeps (P : State → Prop) (as : List Action) (fin : Finish) (s : State) (h : P s)
    (hchan : ∀ s, P s → P (useChannel s)) (hact : ∀ s (a : Action), P s → P (a.perform s))
    (hend : ∀ s f, P s → P (complete f s)) : P (runActions as fin s) := by
  induction as generalizing s with
  | nil => exact hend s fin h
  | cons a as ih =>
    simp only [runActions]
    split
    · exact hend _ _ (hact _ (.setLine .csn .high) (hchan _ h))
    · exact ih _ (hact _ a h)

/-- The block is Idle when its actions have run. -/
@[simp] theorem runActions_seq (as : List Action) (fin : Finish) (s : State) : (runActions as fin s).seq = .idle := by
  induction as generalizing s with
  | nil => simp [runActions]
  | cons a as ih => simp only [runActions]; split <;> simp [ih]

@[simp] theorem outcome_seq (i : Instr) (s : State) : (outcome i s).seq = .idle := by
  simp only [outcome]; split <;> simp [runCommand, reject]

/-- Running actions writes neither the build nor the inert attributes (10_state.md R17, R19), and presents nothing. -/
theorem runActions_inert (as : List Action) (fin : Finish) (s : State) :
    (runActions as fin s).cfg = s.cfg ∧ (runActions as fin s).addrWidth = s.addrWidth ∧
      (runActions as fin s).rxAddrCache = s.rxAddrCache ∧ (runActions as fin s).pending = s.pending := by
  refine runActions_keeps
    (fun t => t.cfg = s.cfg ∧ t.addrWidth = s.addrWidth ∧ t.rxAddrCache = s.rxAddrCache ∧ t.pending = s.pending)
    as fin s ⟨rfl, rfl, rfl, rfl⟩ ?_ ?_ ?_
  · intro t h; simpa using h
  · intro t a h; simpa using h
  · intro t f h; simpa using h

theorem outcome_inert (i : Instr) (s : State) :
    (outcome i s).cfg = s.cfg ∧ (outcome i s).addrWidth = s.addrWidth ∧
      (outcome i s).rxAddrCache = s.rxAddrCache ∧ (outcome i s).pending = s.pending := by
  simp only [outcome]
  split
  · exact runActions_inert _ _ _
  · simp [reject]

/-! ## The discipline of the actions (40_bus_transaction.md R91) and their number of events (10_state.md R14) -/

theorem actionsOk_xfers (l : List (Byte × Option (Fin 6))) (rest : List Action) :
    actionsOk true (xfers l ++ rest) = actionsOk true rest := by
  induction l with
  | nil => rfl
  | cons p l ih => simpa [xfers, actionsOk] using ih

/-- A transaction may stand before any actions that start outside one. -/
@[simp] theorem actionsOk_transaction (l : List (Byte × Option (Fin 6))) (rest : List Action) :
    actionsOk false (withTransaction (xfers l) ++ rest) = actionsOk false rest := by
  simp [withTransaction, actionsOk, actionsOk_xfers]

@[simp] theorem actionsOk_transaction_last (l : List (Byte × Option (Fin 6))) :
    actionsOk false (withTransaction (xfers l)) = true := by
  simpa [actionsOk] using actionsOk_transaction l []

theorem eventCount_append (as bs : List Action) : eventCount (as ++ bs) = eventCount as + eventCount bs := by
  induction as with
  | nil => simp [eventCount]
  | cons a as ih => simp [eventCount, ih, Nat.add_assoc]

theorem eventCount_xfers (l : List (Byte × Option (Fin 6))) : eventCount (xfers l) = l.length := by
  induction l with
  | nil => rfl
  | cons p l ih => simp [xfers, eventCount, Action.isEvent] at ih ⊢; omega

theorem eventCount_transaction (l : List (Byte × Option (Fin 6))) :
    eventCount (withTransaction (xfers l)) = l.length + 2 := by
  have h : withTransaction (xfers l) = [.setLine .csn .low] ++ xfers l ++ [.setLine .csn .high] := rfl
  rw [h, eventCount_append, eventCount_append, eventCount_xfers]
  simp only [eventCount, Action.isEvent, if_true]
  omega

/-- The bracketing of a trace in two parts. -/
theorem bracket_append (isOpen : Bool) (es fs : List Event) :
    bracket isOpen (es ++ fs) = (bracket isOpen es).bind fun b => bracket b fs := by
  induction es generalizing isOpen with
  | nil => simp [bracket]
  | cons e es ih =>
    cases isOpen <;> rcases e with ⟨l, v⟩ | ⟨b, r⟩ | ms <;> (try cases l <;> cases v) <;> simp [bracket, ih]

end Sys2Proof.Machine
end

