-- ==== Sys2Proof/Laws/PerInstr.lean ====
section
/-! SUPPORT. One fact per instruction, about it as syntax: the row of spec/opcode_table.json its encoding falls under. -/

namespace Sys2Proof.Laws

/-- The number in the `OP` field of a request, or the command its first byte says: what the opcode table tells rows
apart by. -/
def OpcodeRow.key : Request → Option (BitVec 4) × Option BusCommand
  | .host w => (some w.op, none)
  | .bus [] => (none, none)
  | .bus (b :: _) => (none, busCommand b)

/-- The row of an instruction (30_encoding.md R70, R72; level S format table). -/
def OpcodeRow.row : Instr → Option (BitVec 4) × Option BusCommand
  | .writeRegister _ _ _ => (some 0x0, none)
  | .readRegister _ _ => (some 0x1, none)
  | .setBit _ _ _ => (some 0x2, none)
  | .configure _ _ => (some 0x3, none)
  | .enterTx => (some 0x4, none)
  | .enterRx => (some 0x5, none)
  | .setDataRate _ => (some 0x6, none)
  | .configurePipes _ _ => (some 0x7, none)
  | .transmit _ _ => (some 0x8, none)
  | .receive _ => (some 0x9, none)
  | .flushTx => (some 0xA, none)
  | .flushRx => (some 0xB, none)
  | .respondIrq => (some 0xC, none)
  | .clearIrq => (some 0xD, none)
  | .reservedE => (some 0xE, none)
  | .reservedF => (some 0xF, none)
  | .opcRRegister a _ => (none, some (.rRegister a))
  | .opcWRegister a _ => (none, some (.wRegister a))
  | .opcWTxPayload _ => (none, some (.wTxPayload))
  | .opcRRxPayload _ => (none, some (.rRxPayload))
  | .opcFlushTx => (none, some (.flushTx))
  | .opcFlushRx => (none, some (.flushRx))

/-- The encoding of an instruction falls under its row, whatever the build. -/
def OpcodeRow.Statement (i : Instr) : Prop := ∀ cfg : Config, OpcodeRow.key (encode cfg i) = OpcodeRow.row i

theorem OpcodeRow.writeRegister (a : RegAddr) (n : BitVec 3) (data : List Byte) : OpcodeRow.Statement (.writeRegister a n data) := by
  intro cfg; simp [OpcodeRow.key, OpcodeRow.row, encode, packBytes]

theorem OpcodeRow.readRegister (a : RegAddr) (n : BitVec 3) : OpcodeRow.Statement (.readRegister a n) := by
  intro cfg; simp [OpcodeRow.key, OpcodeRow.row, encode]

theorem OpcodeRow.setBit (v : Byte) (n : BitPos) (isSet : Bool) : OpcodeRow.Statement (.setBit v n isSet) := by
  intro cfg; simp [OpcodeRow.key, OpcodeRow.row, encode]

theorem OpcodeRow.configure (rx : Bool) (pw : Bool) : OpcodeRow.Statement (.configure rx pw) := by
  intro cfg; simp [OpcodeRow.key, OpcodeRow.row, encode]

theorem OpcodeRow.enterTx : OpcodeRow.Statement (.enterTx) := by
  intro cfg; simp [OpcodeRow.key, OpcodeRow.row, encode]

theorem OpcodeRow.enterRx : OpcodeRow.Statement (.enterRx) := by
  intro cfg; simp [OpcodeRow.key, OpcodeRow.row, encode]

theorem OpcodeRow.setDataRate (rate : Byte) : OpcodeRow.Statement (.setDataRate rate) := by
  intro cfg; simp [OpcodeRow.key, OpcodeRow.row, encode]

theorem OpcodeRow.configurePipes (mask : Byte) (width : Byte) : OpcodeRow.Statement (.configurePipes mask width) := by
  intro cfg; simp [OpcodeRow.key, OpcodeRow.row, encode]

theorem OpcodeRow.transmit (n : BitVec 3) (data : List Byte) : OpcodeRow.Statement (.transmit n data) := by
  intro cfg; simp [OpcodeRow.key, OpcodeRow.row, encode, packBytes]

theorem OpcodeRow.receive (n : BitVec 3) : OpcodeRow.Statement (.receive n) := by
  intro cfg; simp [OpcodeRow.key, OpcodeRow.row, encode]

theorem OpcodeRow.flushTx : OpcodeRow.Statement (.flushTx) := by
  intro cfg; simp [OpcodeRow.key, OpcodeRow.row, encode]

theorem OpcodeRow.flushRx : OpcodeRow.Statement (.flushRx) := by
  intro cfg; simp [OpcodeRow.key, OpcodeRow.row, encode]

theorem OpcodeRow.respondIrq : OpcodeRow.Statement (.respondIrq) := by
  intro cfg; simp [OpcodeRow.key, OpcodeRow.row, encode]

theorem OpcodeRow.clearIrq : OpcodeRow.Statement (.clearIrq) := by
  intro cfg; simp [OpcodeRow.key, OpcodeRow.row, encode]

theorem OpcodeRow.reservedE : OpcodeRow.Statement (.reservedE) := by
  intro cfg; simp [OpcodeRow.key, OpcodeRow.row, encode]

theorem OpcodeRow.reservedF : OpcodeRow.Statement (.reservedF) := by
  intro cfg; simp [OpcodeRow.key, OpcodeRow.row, encode]

theorem OpcodeRow.opcRRegister (a : RegAddr) (count : Fin 6) : OpcodeRow.Statement (.opcRRegister a count) := by
  intro cfg; simp [OpcodeRow.key, OpcodeRow.row, encode]

theorem OpcodeRow.opcWRegister (a : RegAddr) (data : List Byte) : OpcodeRow.Statement (.opcWRegister a data) := by
  intro cfg; simp [OpcodeRow.key, OpcodeRow.row, encode]

theorem OpcodeRow.opcWTxPayload (data : List Byte) : OpcodeRow.Statement (.opcWTxPayload data) := by
  intro cfg; simp [OpcodeRow.key, OpcodeRow.row, encode]

theorem OpcodeRow.opcRRxPayload (count : Fin 6) : OpcodeRow.Statement (.opcRRxPayload count) := by
  intro cfg; simp [OpcodeRow.key, OpcodeRow.row, encode]

theorem OpcodeRow.opcFlushTx : OpcodeRow.Statement (.opcFlushTx) := by
  intro cfg; simp [OpcodeRow.key, OpcodeRow.row, encode]

theorem OpcodeRow.opcFlushRx : OpcodeRow.Statement (.opcFlushRx) := by
  intro cfg; simp [OpcodeRow.key, OpcodeRow.row, encode]

end Sys2Proof.Laws
end

