-- ==== Sys2Proof/Tests/Slice0.lean ====
section
/-! SUPPORT. Tests. Every expected value is written out from spec/: the encodings of 30_encoding.md, the vectors V10 to
V49b of 95_test_vectors.md, and hand calculation from the rules. Then, for every statement with hypotheses, a witness
that meets them together. -/

namespace Sys2Proof.Tests

open Sys2Proof.Machine

/-! ## Helpers -/

/-- The state a step ends in. -/
def after (o : Host.Outcome State Fault Refusal) (s : State) : State :=
  match o with
  | .next t => t
  | .fault _ => s
  | .refused _ => s

/-- An Idle block with a responder, `RB` marked A0 to A5, and a host word presented. -/
def start (r : Responder) (w : HostWord) : State :=
  { State.reset with
    rb := #v[0xA0, 0xA1, 0xA2, 0xA3, 0xA4, 0xA5], responder := r, pending := [.host w] }

/-- One step of such a block. -/
def run (r : Responder) (w : HostWord) : State := after (step (start r w)) (start r w)

/-- The same with a channel whose transfers fail as listed. -/
def startFaulty (fails : List Bool) (r : Responder) (w : HostWord) : State :=
  { start r w with cfg := { Config.standard with channelCanFault := true }, chanFaults := fails }

def runFaulty (fails : List Bool) (r : Responder) (w : HostWord) : State :=
  after (step (startFaulty fails r w)) (startFaulty fails r w)

/-- A chip: STATUS, RF_SETUP and register 0x0A as given, every other register one zero byte. -/
def chip (status rf : Byte) (tx rx : List (List Byte)) : Chip :=
  { regs := (((Vector.replicate 32 [0x00]).set 7 [status]).set 6 [rf]).set 10 [0x11, 0x22, 0x33, 0x44, 0x55]
    txFifo := tx, rxFifo := rx, txn := none }

/-- The chip of a responder. -/
def chipOf : Responder → Option Chip
  | .oracle _ => none
  | .dlr c => some c
  | .dtr c => some c

/-- Replies 0x70, 0x71, ... of an unconstrained responder. -/
def replies : Responder := .oracle [0x70, 0x71, 0x72, 0x73, 0x74, 0x75, 0x76, 0x77, 0x78, 0x79]

def lo : Event := .line .csn .low
def hi : Event := .line .csn .high

/-! ## Well-formedness: one ill-formed term for each check -/

theorem test_wf_write_length : (Instr.writeRegister 0 2 [0x01]).wf = false ∧ (Instr.writeRegister 0 2 [0x01, 0x02]).wf = true := by
  decide

theorem test_wf_transmit_length : (Instr.transmit 1 []).wf = false ∧ (Instr.transmit 1 [0xAB]).wf = true := by decide

theorem test_wf_bus_write_length : (Instr.opcWRegister 0 [1, 2, 3, 4, 5, 6]).wf = false ∧ (Instr.opcWRegister 0 []).wf = true := by
  decide

theorem test_wf_bus_payload_length :
    (Instr.opcWTxPayload []).wf = false ∧ (Instr.opcWTxPayload [1, 2, 3, 4, 5, 6]).wf = false ∧
      (Instr.opcWTxPayload [1]).wf = true := by decide

theorem test_wf_bus_read_count : (Instr.opcRRxPayload 0).wf = false ∧ (Instr.opcRRxPayload 1).wf = true := by decide

/-- The chip map's own checks (10_state.md R25), and the pulse floor (43_payload_io.md R144). -/
theorem test_wf_config :
    Config.standard.wf = true ∧
    (Config.wf { Config.standard with map := { ChipMap.gkDefault with bitCrco := 3 } }) = false ∧
    (Config.wf { Config.standard with map := { ChipMap.gkDefault with bitRfDrLow := 3 } }) = false ∧
    (Config.wf { Config.standard with map := { ChipMap.gkDefault with bitMaxRt := 6 } }) = false ∧
    (Config.wf { Config.standard with cePulseDelayMs := 0 }) = false := by decide

/-! ## Decoding: a word of every constructor, written out from the layout of R69 and R61 -/

/-- Words of the vectors V11, V13, V22, V19, V26c, V27, V28. -/
theorem test_decode_register_words :
    decodeHost 0x050A005544332211#64 = .writeRegister 0x0A 5 [0x11, 0x22, 0x33, 0x44, 0x55] ∧
    decodeHost 0x0605000504030201#64 = .writeRegister 0x05 6 [1, 2, 3, 4, 5] ∧
    decodeHost 0x150A000000000000#64 = .readRegister 0x0A 5 ∧
    decodeHost 0x230000000000005A#64 = .setBit 0x5A 3 false := by decide

theorem test_decode_mode_words :
    decodeHost 0x3000020000000000#64 = .configure true false ∧
    decodeHost 0x4000000000000000#64 = .enterTx ∧
    decodeHost 0x5000000000000000#64 = .enterRx ∧
    decodeHost 0x6000000000000002#64 = .setDataRate 2 ∧
    decodeHost 0x7000000000001003#64 = .configurePipes 0x03 0x10 := by decide

theorem test_decode_payload_words :
    decodeHost 0x85000099EFBEADDE#64 = .transmit 5 [0xDE, 0xAD, 0xBE, 0xEF, 0x99] ∧
    decodeHost 0x9500000000000000#64 = .receive 5 ∧
    decodeHost 0xA000000000000000#64 = .flushTx ∧
    decodeHost 0xB000000000000000#64 = .flushRx := by decide

theorem test_decode_status_and_reserved_words :
    decodeHost 0xC000000000000000#64 = .respondIrq ∧
    decodeHost 0xD000000000000000#64 = .clearIrq ∧
    decodeHost 0xE305030504030201#64 = .reservedE ∧
    decodeHost 0xF000000000000000#64 = .reservedF := by decide

/-- Vectors V47, V47a, V47b: every bit an operation does not read is ignored. -/
theorem test_decode_ignores_unread :
    decodeHost 0xAFFFFFFFFFFFFFFF#64 = .flushTx ∧
    decodeHost 0x19E7FCFFFFFFFFFF#64 = .readRegister 0x07 1 ∧
    decodeHost 0x820000FFFFFF2010#64 = .transmit 2 [0x10, 0x20] := by decide

/-- Transactions, bit by bit from the level S format table. -/
theorem test_decode_transactions :
    decodeFrame false [0b00001010, 0, 0, 0] = .ok (.opcRRegister 0x0A 2) ∧
    decodeFrame true [0b00001010, 0, 0] = .ok (.opcRRegister 0x0A 2) ∧
    decodeFrame false [0b00111111, 0xAA] = .ok (.opcWRegister 0x1F [0xAA]) ∧
    decodeFrame false [0b10100000, 0xAB] = .ok (.opcWTxPayload [0xAB]) ∧
    decodeFrame false [0b01100001, 0, 0] = .ok (.opcRRxPayload 1) ∧
    decodeFrame false [0b11100001] = .ok .opcFlushTx ∧
    decodeFrame false [0b11100010] = .ok .opcFlushRx := by decide

/-- R68, R75: bytes that are no transaction of the block are rejected by name. -/
theorem test_decode_rejects :
    decodeFrame false [] = .error .emptyFrame ∧
    decodeFrame false [0x40] = .error (.notACommandByte 0x40) ∧
    decodeFrame false [0xFF] = .error (.notACommandByte 0xFF) ∧
    decodeFrame false [0x07] = .error .badLength ∧
    decodeFrame false [0x07, 0x01] = .error .dummyNotZero ∧
    decodeFrame false [0x61, 0x00] = .error .badLength ∧
    decodeFrame false [0x20, 1, 2, 3, 4, 5, 6] = .error .badLength ∧
    decodeFrame false [0xA0] = .error .badLength ∧
    decodeFrame false [0xE1, 0x00] = .error .badLength := by decide

/-- Words of the opcode table: 64 bits for a host command, 8 for a command byte. -/
theorem test_decode_table_words :
    decodeTableWord 64 0x9200000000000000 = some (.receive 2) ∧
    decodeTableWord 8 0x07 = some (.opcRRegister 0x07 0) ∧
    decodeTableWord 8 0x27 = some (.opcWRegister 0x07 []) ∧
    decodeTableWord 8 0xA0 = some (.opcWTxPayload [0x00]) ∧
    decodeTableWord 8 0x61 = some (.opcRRxPayload 1) ∧
    decodeTableWord 8 0xE1 = some .opcFlushTx ∧
    decodeTableWord 8 0xE2 = some .opcFlushRx := by decide

/-! ## Register access -/

/-- V11. -/
theorem test_writeRegister :
    (run replies 0x050A005544332211).trace =
      [lo, .xfer 0x2A 0x70, .xfer 0x11 0x71, .xfer 0x22 0x72, .xfer 0x33 0x73, .xfer 0x44 0x74, .xfer 0x55 0x75, hi] ∧
    (run replies 0x050A005544332211).rspCode = .ok := by decide

/-- V13: `N` = 6 is rejected. -/
theorem test_writeRegister_rejected :
    (run replies 0x0605000504030201).trace = [] ∧ (run replies 0x0605000504030201).rspCode = .invalidArg := by decide

/-- V22, against the document-labelled responder. -/
theorem test_readRegister :
    (run (.dlr (chip 0x0E 0x0F [] [])) 0x150A000000000000).trace =
      [lo, .xfer 0x0A 0x0E, .xfer 0x00 0x0E, .xfer 0x00 0x11, .xfer 0x00 0x22, .xfer 0x00 0x33, .xfer 0x00 0x44,
        .xfer 0x00 0x55, hi] ∧
    (run (.dlr (chip 0x0E 0x0F [] [])) 0x150A000000000000).rb = #v[0x0E, 0x11, 0x22, 0x33, 0x44, 0x55] := by decide

/-- V24a: with RD_CAPTURE_CMD and count 0 the transaction is the command byte alone, and slots 1 to 5 keep their
values. -/
theorem test_readRegister_capture :
    let s := start (.dtr (chip 0x0E 0x0F [] [])) 0x100A000000000000
    let t := after (step { s with cfg := { Config.standard with rdCaptureCmd := true } }) s
    t.trace = [lo, .xfer 0x0A 0x0E, hi] ∧ t.rb = #v[0x0E, 0xA1, 0xA2, 0xA3, 0xA4, 0xA5] := by decide

/-- V14 and V19. -/
theorem test_setBit :
    (run replies 0x210002000000000C).rspResult = 0x0E ∧ (run replies 0x230000000000005A).rspResult = 0x52 ∧
      (run replies 0x210002000000000C).trace = [] := by decide

/-- V16 and V17: clearing a set bit, and the highest index. -/
theorem test_setBit_ends :
    (run replies 0x20000000000000FF).rspResult = 0xFE ∧ (run replies 0x2700020000000000).rspResult = 0x80 := by decide

/-! ## The mode controller -/

/-- V26b. -/
theorem test_configure :
    (run replies 0x3000010000000000).trace = [lo, .xfer 0x20 0x70, .xfer 0x0E 0x71, hi] ∧
    (run replies 0x3000010000000000).lastCfg = some (false, true) ∧ (run replies 0x3000010000000000).ce = .low := by
  decide

/-- V27, from CE high. -/
theorem test_enterTx :
    let t := after (step { start replies 0x4000000000000000 with ce := .high }) State.reset
    t.trace = [lo, .xfer 0x20 0x70, .xfer 0x0E 0x71, hi, .line .ce .low] ∧ t.ce = .low := by decide

/-- V28. -/
theorem test_enterRx :
    (run replies 0x5000000000000000).trace = [lo, .xfer 0x20 0x70, .xfer 0x0F 0x71, hi, .line .ce .high] ∧
    (run replies 0x5000000000000000).ce = .high := by decide

/-- V29, with the RF_SETUP it leaves on the chip. -/
theorem test_setDataRate :
    let t := run (.dlr (chip 0x0E 0x0F [] [])) 0x60000000000000FA
    t.trace = [lo, .xfer 0x06 0x0E, .xfer 0x00 0x0E, .xfer 0x00 0x0F, hi, lo, .xfer 0x26 0x0E, .xfer 0x27 0x0E, hi] ∧
    t.rb = #v[0x0E, 0x0F, 0xA2, 0xA3, 0xA4, 0xA5] ∧
    (chipOf t.responder).map (fun c => c.regs[6]) = some [0x27] := by decide

/-- V31a: every other bit of RF_SETUP is kept. -/
theorem test_setDataRate_keeps_bits :
    (chipOf (run (.dlr (chip 0x0E 0xFF [] [])) 0x6000000000000001).responder).map (fun c => c.regs[6]) = some [0xD7] := by
  decide

/-- V34. -/
theorem test_configurePipes :
    (run replies 0x7000000000001003).trace =
      [lo, .xfer 0x22 0x70, .xfer 0x03 0x71, hi, lo, .xfer 0x31 0x72, .xfer 0x10 0x73, hi] ∧
    (run replies 0x7000000000001003).payloadWidth = 16 := by decide

/-! ## Payload input and output -/

/-- V36a, from CE high: the redundant drive is an event. -/
theorem test_transmit :
    let t := after (step { start replies 0x85000099EFBEADDE with ce := .high }) State.reset
    t.trace =
      [lo, .xfer 0xA0 0x70, .xfer 0xDE 0x71, .xfer 0xAD 0x72, .xfer 0xBE 0x73, .xfer 0xEF 0x74, .xfer 0x99 0x75, hi,
        .line .ce .high, .delay 1, .line .ce .low] ∧ t.ce = .low := by decide

/-- V37: an empty payload is rejected. V35 on the chip: the payload is queued. -/
theorem test_transmit_rejected_and_queued :
    (run replies 0x8000000000030201).trace = [] ∧ (run replies 0x8000000000030201).rspCode = .invalidArg ∧
    (chipOf (run (.dlr (chip 0 0 [] [])) 0x8300000000030201).responder).map (fun c => c.txFifo) = some [[1, 2, 3]] := by
  decide

/-- V39. -/
theorem test_receive :
    let t := run (.dlr (chip 0x40 0x0F [] [[0xC1, 0xC2]])) 0x9200000000000000
    t.trace =
      [.line .ce .low, lo, .xfer 0x61 0x40, .xfer 0x00 0x40, .xfer 0x00 0xC1, .xfer 0x00 0xC2, hi, .line .ce .high] ∧
    t.rb = #v[0x40, 0xC1, 0xC2, 0xA3, 0xA4, 0xA5] ∧ (chipOf t.responder).map (fun c => c.rxFifo) = some [] := by decide

/-- V48: the third transfer fails. -/
theorem test_receive_fault :
    let t := runFaulty [false, false, true] (.oracle [0x40, 0x40]) 0x9200000000000000
    t.trace = [.line .ce .low, lo, .xfer 0x61 0x40, .xfer 0x00 0x40, hi] ∧ t.rspCode = .channelFault ∧
    t.rb = #v[0x40, 0xA1, 0xA2, 0xA3, 0xA4, 0xA5] ∧ t.csn = .high ∧ t.ce = .low := by decide

/-- V42. -/
theorem test_flushTx :
    let t := run (.dlr (chip 0x0E 0 [[1], [2]] [[3]])) 0xA000000000000000
    t.trace = [lo, .xfer 0xE1 0x0E, hi] ∧ (chipOf t.responder).map (fun c => (c.txFifo, c.rxFifo)) = some ([], [[3]]) := by
  decide

/-- V43. -/
theorem test_flushRx :
    let t := run (.dlr (chip 0x0E 0 [[1], [2]] [[3]])) 0xB000000000000000
    t.trace = [lo, .xfer 0xE2 0x0E, hi] ∧
      (chipOf t.responder).map (fun c => (c.txFifo, c.rxFifo)) = some ([[1], [2]], []) := by decide

/-! ## Interrupt and status resolution -/

/-- V44: 20 events, the status byte as it was, the flags cleared on the chip. -/
theorem test_respondIrq :
    let t := run (.dlr (chip 0x4E 0 [[1]] [])) 0xC000000000000000
    t.trace =
      [lo, .xfer 0x07 0x4E, .xfer 0x00 0x4E, .xfer 0x00 0x4E, hi, lo, .xfer 0x27 0x4E, .xfer 0x40 0x4E, hi,
        lo, .xfer 0x27 0x0E, .xfer 0x20 0x0E, hi, lo, .xfer 0x27 0x0E, .xfer 0x10 0x0E, hi, lo, .xfer 0xE1 0x0E, hi] ∧
    t.rspResult = 0x4E ∧ t.rspCode = .ok ∧
    (chipOf t.responder).map (fun c => (c.regs[7], c.txFifo)) = some ([0x0E], []) := by decide

/-- V45: all three flags. -/
theorem test_clearIrq :
    let t := run (.dlr (chip 0x7E 0 [[1]] [])) 0xD000000000000000
    t.trace =
      [lo, .xfer 0x27 0x7E, .xfer 0x40 0x7E, hi, lo, .xfer 0x27 0x3E, .xfer 0x20 0x3E, hi,
        lo, .xfer 0x27 0x1E, .xfer 0x10 0x1E, hi, lo, .xfer 0xE1 0x0E, hi] ∧
    t.rb = #v[0xA0, 0xA1, 0xA2, 0xA3, 0xA4, 0xA5] ∧
    (chipOf t.responder).map (fun c => (c.regs[7], c.txFifo)) = some ([0x0E], []) := by decide

/-! ## Reserved operation numbers -/

/-- V46. -/
theorem test_reservedE :
    (run replies 0xE305030504030201).trace = [] ∧ (run replies 0xE305030504030201).rspCode = .invalidOp ∧
      (run replies 0xE305030504030201).rspResult = 0x00 := by decide

/-- V46a. -/
theorem test_reservedF :
    (run replies 0xF000000000000000).trace = [] ∧ (run replies 0xF000000000000000).rspCode = .invalidOp := by decide

/-! ## Transactions presented by themselves (R61; log 15) -/

/-- One step of a block with a transaction presented. -/
def runBus (r : Responder) (frame : List Byte) : State :=
  after (step { start r 0 with pending := [.bus frame], rspCode := .invalidOp }) State.reset

theorem test_opcRRegister :
    let t := runBus (.dlr (chip 0x0E 0x0F [] [])) [0x06, 0x00, 0x00]
    t.trace = [lo, .xfer 0x06 0x0E, .xfer 0x00 0x0E, .xfer 0x00 0x0F, hi] ∧
      t.rb = #v[0x0E, 0x0F, 0xA2, 0xA3, 0xA4, 0xA5] ∧ t.rspCode = .invalidOp := by decide

theorem test_opcWRegister :
    let t := runBus (.dlr (chip 0x0E 0x0F [] [])) [0x26, 0x27]
    t.trace = [lo, .xfer 0x26 0x0E, .xfer 0x27 0x0E, hi] ∧
      (chipOf t.responder).map (fun c => c.regs[6]) = some [0x27] := by decide

theorem test_opcWTxPayload :
    let t := runBus (.dlr (chip 0x0E 0 [] [])) [0xA0, 0xAB]
    t.trace = [lo, .xfer 0xA0 0x0E, .xfer 0xAB 0x0E, hi] ∧ t.ce = .low ∧
      (chipOf t.responder).map (fun c => c.txFifo) = some [[0xAB]] := by decide

theorem test_opcRRxPayload :
    let t := runBus (.dlr (chip 0x40 0 [] [[0xC1]])) [0x61, 0x00, 0x00]
    t.trace = [lo, .xfer 0x61 0x40, .xfer 0x00 0x40, .xfer 0x00 0xC1, hi] ∧
      t.rb = #v[0x40, 0xC1, 0xA2, 0xA3, 0xA4, 0xA5] := by decide

theorem test_opcFlushTx : (runBus replies [0xE1]).trace = [lo, .xfer 0xE1 0x70, hi] := by decide

theorem test_opcFlushRx : (runBus replies [0xE2]).trace = [lo, .xfer 0xE2 0x70, hi] := by decide

/-! ## Witnesses: for each statement with hypotheses, states and operands that meet them together -/

/-- DecodeOfEncodeIsTheInstruction, DecodedIsWellFormedAndFramesHaveOneSpelling: at both levels, lists of both ends. -/
theorem witness_encodings :
    (Instr.writeRegister 31 7 [1, 2, 3, 4, 5]).wf = true ∧ (Instr.transmit 0 []).wf = true ∧
    (Instr.opcRRegister 31 5).wf = true ∧ (Instr.opcWRegister 31 [1, 2, 3, 4, 5]).wf = true ∧
    decode Config.standard (.host 0x150A000000000000) = .ok (.readRegister 0x0A 5) ∧
    decode Config.standard (.bus [0x3F, 0xAA]) = .ok (.opcWRegister 0x1F [0xAA]) := by decide

/-- UnreadFieldsAreIgnored: V42 and V47 differ in every bit the operation does not read. -/
theorem witness_unreadFields :
    (∀ k, readsBit 0xA000000000000000#64 k = true →
      (0xA000000000000000#64).getLsbD k = (0xAFFFFFFFFFFFFFFF#64).getLsbD k) ∧
    (0xA000000000000000#64 : HostWord) ≠ 0xAFFFFFFFFFFFFFFF#64 ∧ State.reset.seq = .idle := by
  refine ⟨fun k hk => ?_, by decide, rfl⟩
  by_cases h : k < 64
  · have all : ∀ k < 64, readsBit 0xA000000000000000#64 k = true →
        (0xA000000000000000#64).getLsbD k = (0xAFFFFFFFFFFFFFFF#64).getLsbD k := by decide
    exact all k h hk
  · rw [BitVec.getLsbD_of_ge _ _ (by omega), BitVec.getLsbD_of_ge _ _ (by omega)]

/-- StepRunsTheDecodedInstruction, at both levels. -/
theorem witness_stepRuns :
    (start replies 0xA000000000000000).seq = .idle ∧
    (start replies 0xA000000000000000).pending = .host 0xA000000000000000 :: [] ∧
    decode (start replies 0xA000000000000000).cfg (.host 0xA000000000000000) = .ok .flushTx ∧
    decode (start replies 0).cfg (.bus [0x07, 0x00, 0x00]) = .ok (.opcRRegister 0x07 1) := by decide

/-- IdleBlockWaitsOrRefusesByName, both clauses. -/
theorem witness_idle :
    State.reset.seq = .idle ∧ State.reset.pending = [] ∧
    (let s := { State.reset with pending := [.bus [0x62]] }
     s.pending = .bus [0x62] :: [] ∧ decodeFrame s.cfg.rdCaptureCmd [0x62] = .error (.notACommandByte 0x62)) := by decide

/-- FetchedTableWordIsRun, and that the very next step from reset runs the word. -/
theorem witness_fetched :
    decodeTableWord 64 0xA000000000000000 = some .flushTx ∧ decodeTableWord 8 0x61 = some (.opcRRxPayload 1) ∧
    (after (step (State.reset.withFetchWord 64 0xA000000000000000)) State.reset).trace.length = 3 ∧
    (after (step (State.reset.withFetchWord 8 0x61)) State.reset).trace.length = 5 := by decide

/-- A block in the middle of enterReceiveMode: four of its five events emitted. -/
def midEnterRx : State :=
  { State.reset with
    seq := .running .enterRx 4 [.setLastCfg true true, .setLine .ce .high] .ok
    trace := [lo, .xfer 0x20 0x70, .xfer 0x0F 0x71, hi] }

theorem reset_inv : BlockInv State.reset := ⟨rfl, by unfold Bracketed; decide, by decide⟩

/-- EveryStepKeepsTheInvariant and EveryTickKeepsTheInvariant, Idle with a command presented, and inside a command. -/
theorem witness_invariant :
    BlockInv (start replies 0xC000000000000000) ∧ (∃ t, step (start replies 0xC000000000000000) = .next t) ∧
    BlockInv midEnterRx ∧ (∃ t, step midEnterRx = .next t) :=
  ⟨⟨rfl, by unfold Bracketed; decide, by decide⟩, ⟨_, rfl⟩,
    ⟨rfl, by decide, false, by decide, by decide, rfl⟩, ⟨_, rfl⟩⟩

/-- TicksRefineTheRun and CounterAdvancesByOnePerEvent, with actions left and with none. -/
theorem witness_running :
    midEnterRx.seq = .running .enterRx 4 [.setLastCfg true true, .setLine .ce .high] .ok ∧
    (ticks 2 midEnterRx).seq = .running .enterRx 5 [] .ok ∧ (tick midEnterRx).trace = midEnterRx.trace ∧
    (ticks 2 midEnterRx).trace = midEnterRx.trace ++ [.line .ce .high] ∧ (ticks 3 midEnterRx).seq = .idle := by decide

/-- ResetEventAbandonsTheCommand: a block with a document-labelled responder. -/
theorem witness_resetEvent :
    (start (.dlr (chip 0x0E 0x0F [[1]] [])) 0).responder = .dlr (chip 0x0E 0x0F [[1]] []) ∧
    (assertReset { midEnterRx with responder := .dlr (chip 0x0E 0x0F [[1]] []) }).seq = .idle := by decide

/-- InvalidArgumentExactlyWhenListed: each listed condition at the ends of its range, and the nearest legal values. -/
theorem witness_invalidArgument :
    badArgument Config.standard (.setDataRate 0) ∧ badArgument Config.standard (.setDataRate 3) ∧
    badArgument Config.standard (.transmit 0 []) ∧ badArgument Config.standard (.transmit 6 [1, 2, 3, 4, 5]) ∧
    badArgument Config.standard (.receive 0) ∧ badArgument Config.standard (.receive 6) ∧
    badArgument Config.standard (.readRegister 0 6) ∧ badArgument Config.standard (.writeRegister 0 6 [1, 2, 3, 4, 5]) ∧
    ¬ badArgument Config.standard (.setDataRate 250) ∧ ¬ badArgument Config.standard (.setDataRate 2) ∧
    ¬ badArgument Config.standard (.transmit 1 [1]) ∧ ¬ badArgument Config.standard (.transmit 5 [1, 2, 3, 4, 5]) ∧
    ¬ badArgument Config.standard (.receive 1) ∧ ¬ badArgument Config.standard (.receive 5) ∧
    ¬ badArgument Config.standard (.readRegister 0 5) ∧ ¬ badArgument Config.standard (.writeRegister 0 0 []) ∧
    isHostCommand (.receive 1) = true := by
  simp only [badArgument]; decide

/-- ReservedOpcodeChangesOnlyTheCode: both numbers. -/
theorem witness_reserved :
    (start replies 0xE305030504030201).seq = .idle ∧
    (start replies 0xE305030504030201).pending = .host 0xE305030504030201 :: [] ∧
    (0xE305030504030201#64).extractLsb' 60 4 = 0xE#4 ∧ (0xF000000000000000#64).extractLsb' 60 4 = 0xF#4 := by decide

/-- ChannelFaultEndsTheCommand: V48, with a slot written before the fault (0), one that would have been written after it
(1) and one that is never written (3); the run without faults has the failing transfer. -/
theorem witness_channelFault :
    let s := startFaulty [false, false, true] (.oracle [0x40, 0x40, 0xC1, 0xC2]) 0
    let s' := { s with cfg := { s.cfg with channelCanFault := false } }
    (Instr.receive 2).wf = true ∧ s.cfg.channelCanFault = true ∧ s.chanFaults = List.replicate 2 false ++ true :: [] ∧
    exec (.receive 2) s' = .next (after (exec (.receive 2) s') s) ∧
    2 < (transfers (after (exec (.receive 2) s') s).trace).length ∧
    mayOverwrite (.receive 2) 0 ∧ (0 : Nat) + 1 < 2 ∧ mayOverwrite (.receive 2) 1 ∧ ¬ ((1 : Nat) + 1 < 2) ∧
    ¬ mayOverwrite (.receive 2) 3 :=
  ⟨rfl, rfl, rfl, rfl, by decide, by simp only [mayOverwrite]; decide, by decide, by simp only [mayOverwrite]; decide,
    by decide, by simp only [mayOverwrite]; decide⟩

/-- ChannelFaultEndsTheCommand, first clause: a channel that cannot fail. -/
theorem witness_noFault :
    State.reset.cfg.channelCanFault = false ∧ isHostCommand .flushTx = true ∧
      ∃ t, exec .flushTx State.reset = .next t := ⟨rfl, rfl, _, rfl⟩

/-- ChannelFaultSkipsTheCeDrive: V48, V49b, V49 and enterTransmitMode with its first transfer failing. -/
theorem witness_skippedCe :
    (after (exec (.receive 2) (startFaulty [false, false, true] replies 0)) State.reset).rspCode = .channelFault ∧
    (after (exec (.transmit 3 [1, 2, 3]) (startFaulty [false, false, true] replies 0)) State.reset).rspCode =
      .channelFault ∧
    (after (exec .enterTx (startFaulty [true] replies 0)) State.reset).rspCode = .channelFault ∧
    (after (exec .enterRx (startFaulty [true] replies 0)) State.reset).rspCode = .channelFault := by decide

/-- WriteRegisterSendsItsBytes: an empty list, a full one, and one that is too long; with a channel that cannot fail,
and with one that can and does not. -/
theorem witness_writeRegister :
    (Instr.writeRegister 5 0 []).wf = true ∧ (Instr.writeRegister 31 5 [1, 2, 3, 4, 5]).wf = true ∧
    (5 : BitVec 3).toNat ≤ Config.standard.maxWrLen.val ∧ ChannelHolds State.reset 6 ∧
    ChannelHolds (startFaulty [false, false, false, false, false, false, true] replies 0) 6 ∧
    (Instr.writeRegister 31 6 [1, 2, 3, 4, 5]).wf = true ∧ Config.standard.maxWrLen.val < (6 : BitVec 3).toNat :=
  ⟨by decide, by decide, by decide, .inl rfl, .inr ⟨[true], rfl⟩, by decide, by decide⟩

/-- ReadRegisterFillsTheBuffer: counts 0 and 5, and one that is too large. -/
theorem witness_readRegister :
    (0 : BitVec 3).toNat ≤ 5 ∧ (5 : BitVec 3).toNat ≤ 5 ∧ ChannelHolds State.reset 7 ∧ 5 < (6 : BitVec 3).toNat :=
  ⟨by decide, by decide, .inl rfl, by decide⟩

/-- SetBitLaws: two different positions, and a bit that is 0. -/
theorem witness_setBitLaws : (1 : BitPos) ≠ 0 ∧ (0x0C#8).getLsbD (1 : BitPos).toNat = false := by decide

/-- OnlyListedCommandsOverwriteTheBuffer: the slot just beyond a read's count, and a command that reads nothing. -/
theorem witness_overwrite :
    ¬ mayOverwrite (.readRegister 7 1) 2 ∧ mayOverwrite (.readRegister 7 1) 1 ∧ ¬ mayOverwrite .flushTx 0 ∧
      (∃ t, exec (.readRegister 7 1) State.reset = .next t) ∧ ∃ t, exec .flushTx State.reset = .next t :=
  ⟨by simp only [mayOverwrite]; decide, by simp only [mayOverwrite]; decide, by simp [mayOverwrite], ⟨_, rfl⟩, _, rfl⟩

/-- ConfigureWritesTheConfigByte and EnteringAModeDrivesCe. -/
theorem witness_configure : State.reset.cfg.map.wf = true ∧ ChannelHolds State.reset 2 := ⟨by decide, .inl rfl⟩

/-- SetDataRateRewritesTheTwoRateBits: the three rates, and one that is none of them. -/
theorem witness_setDataRate :
    State.reset.cfg.map.wf = true ∧ ChannelHolds State.reset 5 ∧
    rateBits 250 = some (true, false) ∧ rateBits 1 = some (false, false) ∧ rateBits 2 = some (false, true) ∧
    (3 : Byte) ≠ 250#8 ∧ (3 : Byte) ≠ 1#8 ∧ (3 : Byte) ≠ 2#8 :=
  ⟨by decide, .inl rfl, by decide, by decide, by decide, by decide, by decide, by decide⟩

/-- ConfigurePipesWritesMaskThenWidth, FlushesSendOneByte, ClearInterruptsWritesThreeFlagsThenFlushes and
RespondToInterruptReadsThenClears: a channel that can fail and does not. -/
theorem witness_channelHolds :
    let s := startFaulty (List.replicate 10 false) replies 0
    ChannelHolds s 4 ∧ ChannelHolds s 1 ∧ ChannelHolds s 7 ∧ ChannelHolds s 10 :=
  ⟨.inr ⟨List.replicate 6 false, rfl⟩, .inr ⟨List.replicate 9 false, rfl⟩, .inr ⟨List.replicate 3 false, rfl⟩,
    .inr ⟨[], rfl⟩⟩

/-- TransmitSendsThenPulsesCe: lengths 1 and 5, and lengths 0 and 6. -/
theorem witness_transmit :
    (Instr.transmit 1 [0xAB]).wf = true ∧ 1 ≤ (1 : BitVec 3).toNat ∧ (Instr.transmit 5 [1, 2, 3, 4, 5]).wf = true ∧
    (5 : BitVec 3).toNat ≤ 5 ∧ ChannelHolds State.reset 6 ∧ (Instr.transmit 0 []).wf = true ∧
    (0 : BitVec 3).toNat < 1 ∧ (Instr.transmit 6 [1, 2, 3, 4, 5]).wf = true ∧ 5 < (6 : BitVec 3).toNat :=
  ⟨by decide, by decide, by decide, by decide, .inl rfl, by decide, by decide, by decide, by decide⟩

/-- ReceiveFillsTheBufferWithCeLow: counts 1 and 5, and counts 0 and 6. -/
theorem witness_receive :
    1 ≤ (1 : BitVec 3).toNat ∧ (5 : BitVec 3).toNat ≤ 5 ∧ ChannelHolds State.reset 7 ∧ (0 : BitVec 3).toNat < 1 ∧
      5 < (6 : BitVec 3).toNat := ⟨by decide, by decide, .inl rfl, by decide, by decide⟩

/-- CeIsDrivenByFourOperationsOnly: the clause of a command that runs to its end. -/
theorem witness_ce :
    State.reset.cfg.channelCanFault = false ∧ ¬ badArgument State.reset.cfg (.transmit 1 [0xAB]) ∧
      ∃ t, exec (.transmit 1 [0xAB]) State.reset = .next t :=
  ⟨rfl, by simp only [badArgument]; decide, _, rfl⟩

/-- WritingTransactionsSendTheirBytes and ReadingTransactionsFillTheBuffer: each alternative, shortest and longest. -/
theorem witness_transactions :
    (Instr.opcFlushTx).wf = true ∧ (Instr.opcFlushRx).wf = true ∧ (Instr.opcWTxPayload [1]).wf = true ∧
    (Instr.opcWTxPayload [1, 2, 3, 4, 5]).wf = true ∧ (Instr.opcWRegister 31 []).wf = true ∧
    (Instr.opcRRegister 31 0).wf = true ∧ (Instr.opcRRxPayload 1).wf = true ∧ (Instr.opcRRxPayload 5).wf = true ∧
    ChannelHolds State.reset 7 :=
  ⟨rfl, rfl, by decide, by decide, by decide, rfl, by decide, by decide, .inl rfl⟩

/-- HostCommandsAreTheirTransactions: each alternative. -/
theorem witness_hostCommands :
    State.reset.cfg.maxWrLen = 5 ∧ [0x0E#8].length = (1 : BitVec 3).toNat ∧ (5 : BitVec 3).toNat = (5 : Fin 6).val ∧
    (∃ t, exec .flushTx State.reset = .next t) ∧ (∃ t, exec .opcFlushTx State.reset = .next t) ∧
    (∃ t, exec (.readRegister 7 5) State.reset = .next t) ∧ ∃ t, exec (.opcRRegister 7 5) State.reset = .next t :=
  ⟨rfl, rfl, rfl, ⟨_, rfl⟩, ⟨_, rfl⟩, ⟨_, rfl⟩, _, rfl⟩

/-- ScriptedRepliesArriveInOrder and CompositesAreTheirExpansions: a script of ten replies. -/
theorem witness_script :
    (start replies 0).cfg.channelCanFault = false ∧ 1 ≤ (start replies 0).cfg.maxWrLen.val ∧
    (start replies 0).responder = .oracle [0x70, 0x71, 0x72, 0x73, 0x74, 0x75, 0x76, 0x77, 0x78, 0x79] ∧
    (transfers (after (exec .respondIrq (start replies 0)) State.reset).trace).length = 10 := by decide

/-- CompositesAreTheirExpansions: the commands of each expansion answer. -/
theorem witness_composites (m : ChipMap) (s : State) :
    (∃ t, exec (.configure true false) s = .next t) ∧
    (∃ t, exec (.writeRegister m.addrConfig 1 [cfgByte m true false]) s = .next t) ∧
    (∃ t, exec (.configurePipes 3 16) s = .next t) ∧ (∃ t, exec .clearIrq s = .next t) ∧
    (∃ t, exec .respondIrq s = .next t) ∧ ∃ t, exec (.readRegister m.addrStatus 1) s = .next t :=
  ⟨⟨_, exec_eq _ s⟩, ⟨_, exec_eq _ s⟩, ⟨_, exec_eq _ s⟩, ⟨_, exec_eq _ s⟩, ⟨_, exec_eq _ s⟩, _, exec_eq _ s⟩

/-- OnlyTheRepliesMatter: two responders that give the same replies. -/
theorem witness_sameReplies :
    let s := start (.oracle [0x0E]) 0
    let s' := { s with responder := .dlr (chip 0x0E 0x0F [] []) }
    (transfers (after (exec .flushTx s) s).trace).map Prod.snd =
      (transfers (after (exec .flushTx s') s).trace).map Prod.snd := by decide

/-- WriteOnlyStateIsNeverRead: two states that differ in what no operation reads. -/
theorem witness_writeOnly :
    let s := start replies 0
    let s' := { s with ce := .high, payloadWidth := 9, lastCfg := some (true, true), rspCode := .channelFault }
    s'.cfg = s.cfg ∧ s'.rb = s.rb ∧ s'.responder = s.responder ∧ s'.chanFaults = s.chanFaults ∧ s'.draws = s.draws ∧
      s' ≠ s ∧ (∃ t, exec (.setBit 1 2 true) s = .next t) ∧ (∃ t, exec (.setBit 1 2 true) s' = .next t) ∧
      isHostCommand (.setBit 1 2 true) = true :=
  ⟨rfl, rfl, rfl, rfl, rfl, by decide, ⟨_, rfl⟩, ⟨_, rfl⟩, rfl⟩

/-- StepKeepsTheBuildAndInertAttributes. -/
theorem witness_step : ∃ t, step State.reset = .next t := ⟨_, rfl⟩

/-- WriteThenReadRoundTrips: a full register and a part of one, against both responders. -/
theorem witness_roundTrip :
    let c := chip 0x0E 0x0F [] []
    State.reset.cfg.channelCanFault = false ∧ (Instr.writeRegister 10 5 [1, 2, 3, 4, 5]).wf = true ∧
    (Instr.writeRegister 10 1 [9]).wf = true ∧ 1 ≤ (1 : BitVec 3).toNat ∧
    (5 : BitVec 3).toNat ≤ State.reset.cfg.maxWrLen.val ∧ c.wf = true ∧ c.txn = none ∧
    (10 : RegAddr) ≠ State.reset.cfg.map.addrStatus ∧ [1#8, 2, 3, 4, 5].length ≤ (c.regs[(10 : RegAddr).toFin]).length ∧
    c.status State.reset.cfg.map = some 0x0E ∧ (start (.dlr c) 0).responder = .dlr c ∧
    (start (.dtr c) 0).responder = .dtr c := by decide

/-- RespondToInterruptReportsThenClearsFlags and PayloadCommandsMoveTheFifos. -/
theorem witness_dlr :
    let c := chip 0x7E 0x0F [[1], [2]] [[3]]
    let s := start (.dlr c) 0
    s.cfg.channelCanFault = false ∧ s.responder = .dlr c ∧ c.txn = none ∧
    c.status s.cfg.map = some 0x7E ∧ (Instr.transmit 1 [9]).wf = true ∧
    (after (exec (.transmit 1 [9]) s) s).responder = .dlr { c with txFifo := [[1], [2], [9]] } ∧
    (after (exec (.receive 1) s) s).responder = .dlr { c with rxFifo := [] } := by decide

/-- A fourth payload is dropped (R54). -/
theorem witness_fullFifo :
    let c := chip 0x0E 0x0F [[1], [2], [3]] []
    (after (exec (.transmit 1 [9]) (start (.dlr c) 0)) State.reset).responder = .dlr c := by decide

/-- StepKeepsTheChipWellFormed, for both reference responders. -/
theorem witness_chipWf :
    let c := chip 0x0E 0x0F [[1], [2], [3]] []
    (start (.dlr c) 0x8100000000000009).seq = .idle ∧ c.wf = true ∧ c.txn = none ∧
    (start (.dlr c) 0x8100000000000009).responder = .dlr c ∧ (start (.dtr c) 0x8100000000000009).responder = .dtr c ∧
    step (start (.dlr c) 0x8100000000000009) = .next (run (.dlr c) 0x8100000000000009) :=
  ⟨rfl, by decide, rfl, rfl, rfl, rfl⟩

/-- ModeViewFollowsTheCommands: the four configurations of transmit and receive. -/
theorem witness_mode :
    let s := { State.reset with lastCfg := some (false, true) }
    let s' := { State.reset with lastCfg := some (true, true) }
    s.cfg.channelCanFault = false ∧ transceiverMode (after (exec (.transmit 1 [9]) s) s) = .txStandby ∧
    transceiverMode (after (exec (.transmit 1 [9]) s') s') = .rxSuspended ∧
    transceiverMode (after (exec (.receive 1) s) s) = .txActive ∧
    transceiverMode (after (exec (.receive 1) s') s') = .rxListening := by decide

/-- ResolutionViewFollowsTheWrites: the position just before and just after the last event of the third write. -/
theorem witness_resolution :
    let s := accept .respondIrq (readPlan Config.standard 7 1 ++ clearInterruptsPlan ChipMap.gkDefault) (.okSlot 0)
      State.reset
    resolution (ticks 16 s) = .interruptPending ∧ resolution (ticks 17 s) = .resolved ∧
    resolution (ticks 20 s) = .resolved ∧ resolution (ticks 21 s) = .idle := by decide

end Sys2Proof.Tests
end

section
/-! PROOFS. The statements of the state (10_state.md): what a step and one move of the sequencer do, said once per case;
then the frame, the event counter, the invariant and the refinement. -/

namespace Sys2Proof.Machine

/-! ## What a step does, by what the block is doing -/

theorem step_of_running {s : State} {cmd : Instr} {k : Nat} {rest : List Action} {fin : Finish}
    (h : s.seq = .running cmd k rest fin) : step s = .next (runActions rest fin s) := by
  simp [step, finishCommand, h]

theorem step_of_nothing_pending {s : State} (hseq : s.seq = .idle) (hpending : s.pending = []) :
    step s = .next s := by
  simp [step, hseq, hpending]

theorem step_of_decode_ok {s : State} {r : Request} {more : List Request} {i : Instr} (hseq : s.seq = .idle)
    (hpending : s.pending = r :: more) (hdecode : decode s.cfg r = .ok i) :
    step s = .next (outcome i { s with pending := more }) := by
  simp [step, hseq, hpending, hdecode, exec_eq]

theorem step_of_decode_error {s : State} {r : Request} {more : List Request} {e : DecodeError} (hseq : s.seq = .idle)
    (hpending : s.pending = r :: more) (hdecode : decode s.cfg r = .error e) :
    step s = .refused (.undecodable e) := by
  simp [step, hseq, hpending, hdecode]

/-- A step that answers runs the command in progress to its end, waits, or runs the instruction presented. -/
theorem step_cases {s t : State} (h : step s = .next t) :
    (∃ cmd k rest fin, s.seq = .running cmd k rest fin ∧ t = runActions rest fin s) ∨
    (s.seq = .idle ∧ s.pending = [] ∧ t = s) ∨
    (∃ r more i, s.seq = .idle ∧ s.pending = r :: more ∧ decode s.cfg r = .ok i ∧
      t = outcome i { s with pending := more }) := by
  rcases hseq : s.seq with _ | ⟨cmd, k, rest, fin⟩
  · rcases hpending : s.pending with _ | ⟨r, more⟩
    · rw [step_of_nothing_pending hseq hpending] at h
      cases h
      exact .inr (.inl ⟨rfl, rfl, rfl⟩)
    · rcases hdecode : decode s.cfg r with e | i
      · rw [step_of_decode_error hseq hpending hdecode] at h
        cases h
      · rw [step_of_decode_ok hseq hpending hdecode] at h
        cases h
        exact .inr (.inr ⟨r, more, i, rfl, rfl, hdecode, rfl⟩)
  · rw [step_of_running hseq] at h
    cases h
    exact .inl ⟨cmd, k, rest, fin, rfl, rfl⟩

/-! ## What one move of the sequencer does, by its position (R14) -/

section Tick

variable {s : State} {cmd : Instr} {k : Nat} {a : Action} {rest : List Action} {fin : Finish}

theorem tick_of_idle (h : s.seq = .idle) : tick s = s := by simp [tick, h]

theorem tick_of_nil (h : s.seq = .running cmd k [] fin) : tick s = complete fin s := by simp [tick, h]

theorem tick_of_not_fails (h : s.seq = .running cmd k (a :: rest) fin) (ha : a.fails s = false) :
    tick s = { a.perform s with seq := .running cmd (if a.isEvent then k + 1 else k) rest fin } := by
  simp [tick, h, ha]

theorem tick_of_fails (h : s.seq = .running cmd k (a :: rest) fin) (ha : a.fails s = true) :
    tick s = { useChannel s with seq := .running cmd k faultRest .channelFault } := by
  simp [tick, h, ha]

theorem ticks_of_idle (n : Nat) (h : s.seq = .idle) : ticks n s = s := by
  induction n with
  | zero => rfl
  | succ n ih => rw [ticks, tick_of_idle h, ih]

end Tick

/-- Only a transfer fails. -/
theorem eq_xfer_of_fails {a : Action} {s : State} (h : a.fails s = true) : ∃ src slot, a = .xfer src slot := by
  cases a with
  | xfer src slot => exact ⟨src, slot, rfl⟩
  | _ => cases h

/-- Without CHANNEL_CAN_FAULT nothing fails. -/
theorem fails_of_channelCanFault_eq_false {s : State} (hc : s.cfg.channelCanFault = false) (a : Action) :
    a.fails s = false := by
  cases a <;> simp [Action.fails, transferFails, hc]

/-- The event an action emits, if it is one (R8). -/
theorem perform_trace_of_isEvent {a : Action} (s : State) (h : a.isEvent = true) :
    ∃ e, (a.perform s).trace = s.trace ++ [e] := by
  cases a with
  | setLine l v => exact ⟨_, setControlLine_trace l v s⟩
  | xfer src slot => exact ⟨_, exchange_trace _ slot s⟩
  | delay ms => exact ⟨_, delayMs_trace ms s⟩
  | setPayloadWidth w => cases h
  | setLastCfg rx pw => cases h

theorem perform_trace_of_not_isEvent {a : Action} (s : State) (h : a.isEvent = false) :
    (a.perform s).trace = s.trace := by
  cases a with
  | setPayloadWidth w => rfl
  | setLastCfg rx pw => rfl
  | _ => cases h

/-- Settles O7: the two cases of an Idle step that run nothing. -/
theorem idleBlockWaitsOrRefusesByName : Obligations.IdleBlockWaitsOrRefusesByName := by
  intro s hseq
  exact ⟨step_of_nothing_pending hseq, fun _ _ _ hpending hdecode => step_of_decode_error hseq hpending hdecode⟩

/-- Settles O15: the values are those of `State.reset`, which is Idle with nothing presented. -/
theorem resetValues : Obligations.ResetValues :=
  ⟨rfl, rfl, rfl, rfl, rfl, step_of_nothing_pending rfl rfl⟩

/-- Settles O42: every way a step answers keeps them (`runActions_inert`, `outcome_inert`). -/
theorem stepKeepsTheBuildAndInertAttributes : Obligations.StepKeepsTheBuildAndInertAttributes := by
  intro s t h
  obtain ⟨cmd, k, rest, fin, -, rfl⟩ | ⟨-, -, rfl⟩ | ⟨r, more, i, -, -, -, rfl⟩ := step_cases h
  · obtain ⟨hcfg, hwidth, hcache, -⟩ := runActions_inert rest fin s
    exact ⟨hcfg, hwidth, hcache⟩
  · exact ⟨rfl, rfl, rfl⟩
  · obtain ⟨hcfg, hwidth, hcache, -⟩ := outcome_inert i { s with pending := more }
    exact ⟨hcfg, hwidth, hcache⟩

/-- Settles O14: by whether an action is left, whether it fails, and whether it is an event. -/
theorem counterAdvancesByOnePerEvent : Obligations.CounterAdvancesByOnePerEvent := by
  intro s cmd k rest fin h
  rcases rest with _ | ⟨a, rest⟩
  · refine ⟨fun _ => ?_, fun hne => absurd rfl hne⟩
    rw [tick_of_nil h]
    exact ⟨complete_seq fin s, complete_trace fin s⟩
  · refine ⟨fun hnil => absurd hnil (List.cons_ne_nil a rest), fun _ => ?_⟩
    cases hfails : a.fails s with
    | true =>
      rw [tick_of_fails h hfails]
      exact ⟨k, faultRest, .channelFault, rfl, .inr ⟨rfl, rfl⟩⟩
    | false =>
      rw [tick_of_not_fails h hfails]
      refine ⟨_, rest, fin, rfl, ?_⟩
      cases hevent : a.isEvent with
      | true =>
        obtain ⟨e, htrace⟩ := perform_trace_of_isEvent s hevent
        exact .inl ⟨e, htrace, rfl⟩
      | false => exact .inr ⟨perform_trace_of_not_isEvent s hevent, rfl⟩

/-! ## The invariant at every position (R13, R14, 40_bus_transaction.md R91) -/

/-- The level CSN has, from whether a transaction is open (R13). -/
def csnLevel (isOpen : Bool) : Level := if isOpen then .low else .high

/-- The part of the invariant that an action moves along: the trace so far and the actions left obey R91, and CSN is
Low exactly inside a transaction. -/
def Disciplined (rest : List Action) (s : State) : Prop :=
  ∃ isOpen, bracket false s.trace = some isOpen ∧ actionsOk isOpen rest = true ∧ s.csn = csnLevel isOpen

theorem blockInv_of_idle {s : State} (h : s.seq = .idle) :
    BlockInv s ↔ s.csn = .high ∧ Bracketed s.trace ∧ s.trace.length ≤ maxEvents := by
  simp [BlockInv, h]

theorem blockInv_of_running {s : State} {cmd : Instr} {k : Nat} {rest : List Action} {fin : Finish}
    (h : s.seq = .running cmd k rest fin) :
    BlockInv s ↔ k = s.trace.length ∧ k + eventCount rest ≤ maxEvents ∧ Disciplined rest s := by
  simp [BlockInv, h, Disciplined, csnLevel]

/-- Once no action is left, no transaction is open. -/
theorem Disciplined.closed {s : State} (h : Disciplined [] s) : s.csn = .high ∧ Bracketed s.trace := by
  obtain ⟨isOpen, hbracket, hok, hcsn⟩ := h
  cases isOpen with
  | true => cases hok
  | false => exact ⟨hcsn, hbracket⟩

/-- One event more: whether a transaction is open after it depends on whether one was open before. -/
theorem bracket_concat {isOpen : Bool} {es : List Event} (h : bracket false es = some isOpen) (e : Event) :
    bracket false (es ++ [e]) = bracket isOpen [e] := by
  rw [bracket_append, h, Option.bind_some]

/-- An action that does not fail keeps the discipline. -/
theorem Disciplined.perform {a : Action} {rest : List Action} {s : State} (h : Disciplined (a :: rest) s) :
    Disciplined rest (a.perform s) := by
  obtain ⟨isOpen, hbracket, hok, hcsn⟩ := h
  cases a with
  | setLine l v =>
    cases l with
    | ce =>
      cases isOpen with
      | true => cases hok
      | false => exact ⟨false, bracket_concat hbracket _, hok, hcsn⟩
    | csn =>
      cases isOpen with
      | true =>
        cases v with
        | low => cases hok
        | high => exact ⟨false, bracket_concat hbracket _, hok, rfl⟩
      | false =>
        cases v with
        | low => exact ⟨true, bracket_concat hbracket _, hok, rfl⟩
        | high => cases hok
  | xfer src slot =>
    cases isOpen with
    | true =>
      exact ⟨true, (exchange_trace _ slot s) ▸ bracket_concat hbracket _, hok, (exchange_csn _ slot s).trans hcsn⟩
    | false => cases hok
  | delay ms =>
    cases isOpen with
    | true => cases hok
    | false => exact ⟨false, bracket_concat hbracket _, hok, hcsn⟩
  | setPayloadWidth w =>
    cases isOpen with
    | true => cases hok
    | false => exact ⟨false, hbracket, hok, hcsn⟩
  | setLastCfg rx pw =>
    cases isOpen with
    | true => cases hok
    | false => exact ⟨false, hbracket, hok, hcsn⟩

/-- A transfer stands inside a transaction, so the clean-up of a failing one (60_exceptions.md R183) closes it. -/
theorem Disciplined.faultRest {src : ByteSource} {slot : Option (Fin 6)} {rest : List Action} {s : State}
    (h : Disciplined (.xfer src slot :: rest) s) : Disciplined faultRest (useChannel s) := by
  obtain ⟨isOpen, hbracket, hok, hcsn⟩ := h
  cases isOpen with
  | true => exact ⟨true, hbracket, rfl, hcsn⟩
  | false => cases hok

/-- Settles O10: the last trace is empty and CSN is High. -/
theorem invariantHoldsAtReset : Obligations.InvariantHoldsAtReset :=
  (blockInv_of_idle rfl).mpr ⟨rfl, rfl, Nat.zero_le _⟩

/-- Settles O12: by the position, and whether the next action fails. -/
theorem everyTickKeepsTheInvariant : Obligations.EveryTickKeepsTheInvariant := by
  intro s hinv
  rcases hseq : s.seq with _ | ⟨cmd, k, _ | ⟨a, rest⟩, fin⟩
  · rwa [tick_of_idle hseq]
  · obtain ⟨hk, hmax, hdisc⟩ := (blockInv_of_running hseq).mp hinv
    obtain ⟨hcsn, hbracketed⟩ := hdisc.closed
    rw [tick_of_nil hseq, blockInv_of_idle (complete_seq fin s)]
    simp only [complete_csn, complete_trace]
    exact ⟨hcsn, hbracketed, by simpa [eventCount, hk] using hmax⟩
  · obtain ⟨hk, hmax, hdisc⟩ := (blockInv_of_running hseq).mp hinv
    cases hfails : a.fails s with
    | true =>
      obtain ⟨src, slot, rfl⟩ := eq_xfer_of_fails hfails
      rw [tick_of_fails hseq hfails, blockInv_of_running rfl]
      have hcount : k + eventCount faultRest ≤ maxEvents := by
        simp only [eventCount, faultRest, Action.isEvent, if_true] at hmax ⊢
        omega
      exact ⟨hk, hcount, hdisc.faultRest⟩
    | false =>
      rw [tick_of_not_fails hseq hfails, blockInv_of_running rfl]
      have hnext : (if a.isEvent then k + 1 else k) = k + if a.isEvent then 1 else 0 := by split <;> rfl
      rw [hnext]
      exact ⟨by rw [hk]; exact (perform_trace_length s a).symm, by rw [Nat.add_assoc]; exact hmax, hdisc.perform⟩

/-! ## The sequencer refines the run (R14) -/

/-- What an action does and whether it fails do not depend on the sequencer position, which it keeps. -/
theorem perform_with_seq (a : Action) (s : State) (q : Seq) :
    a.perform { s with seq := q } = { a.perform s with seq := q } := by
  rcases a with ⟨_ | _, v⟩ | ⟨_ | _, _ | _⟩ | ms | w | ⟨rx, pw⟩ <;> rfl

theorem fails_with_seq (a : Action) (s : State) (q : Seq) : a.fails { s with seq := q } = a.fails s := by
  cases a <;> rfl

theorem complete_with_seq (fin : Finish) (s : State) (q : Seq) :
    complete fin { s with seq := q } = complete fin s := by
  cases fin <;> rfl

theorem runActions_cons_of_fails {a : Action} {s : State} (as : List Action) (fin : Finish) (h : a.fails s = true) :
    runActions (a :: as) fin s = complete .channelFault (setControlLine .csn .high (useChannel s)) := by
  rw [runActions, if_pos h]

theorem runActions_cons_of_not_fails {a : Action} {s : State} (as : List Action) (fin : Finish)
    (h : a.fails s = false) : runActions (a :: as) fin s = runActions as fin (a.perform s) := by
  rw [runActions, h, if_neg Bool.false_ne_true]

/-- Running actions does not depend on the sequencer position. -/
theorem runActions_with_seq (as : List Action) (fin : Finish) (s : State) (q : Seq) :
    runActions as fin { s with seq := q } = runActions as fin s := by
  induction as generalizing s with
  | nil => exact complete_with_seq fin s q
  | cons a as ih => simp only [runActions, fails_with_seq, perform_with_seq, ih]; rfl

/-- A move leaves what the command ends in as it is: the commuting diagram of the refinement. -/
theorem finishCommand_tick (s : State) : finishCommand (tick s) = finishCommand s := by
  rcases hseq : s.seq with _ | ⟨cmd, k, _ | ⟨a, rest⟩, fin⟩
  · rw [tick_of_idle hseq]
  · rw [tick_of_nil hseq]
    simp [finishCommand, hseq, runActions]
  · cases hfails : a.fails s with
    | true =>
      rw [tick_of_fails hseq hfails]
      simp only [finishCommand, hseq, runActions_with_seq, runActions_cons_of_fails rest fin hfails]
      rfl
    | false =>
      rw [tick_of_not_fails hseq hfails]
      simp only [finishCommand, hseq, runActions_with_seq, runActions_cons_of_not_fails rest fin hfails]

theorem finishCommand_ticks (n : Nat) (s : State) : finishCommand (ticks n s) = finishCommand s := by
  induction n generalizing s with
  | zero => rfl
  | succ n ih => rw [ticks, ih, finishCommand_tick]

theorem finishCommand_of_idle {s : State} (h : s.seq = .idle) : finishCommand s = s := by
  simp [finishCommand, h]

/-- The clean-up of a failing transfer takes two moves. -/
theorem ticks_faultRest_seq {s : State} {cmd : Instr} {k : Nat} (n : Nat)
    (h : s.seq = .running cmd k faultRest .channelFault) : (ticks (n + 2) s).seq = .idle := by
  have hlast := tick_of_not_fails h rfl
  rw [ticks, ticks, hlast, tick_of_nil rfl, ticks_of_idle n (complete_seq _ _)]
  exact complete_seq _ _

/-- A move for each action left and two more reach the end, even if the last action fails. -/
theorem ticks_seq_of_running {s : State} {cmd : Instr} {k : Nat} {rest : List Action} {fin : Finish}
    (h : s.seq = .running cmd k rest fin) : (ticks (rest.length + 2) s).seq = .idle := by
  induction rest generalizing s k with
  | nil =>
    rw [ticks, tick_of_nil h, ticks_of_idle _ (complete_seq fin s)]
    exact complete_seq fin s
  | cons a rest ih =>
    rw [List.length_cons, Nat.succ_add, ticks]
    cases hfails : a.fails s with
    | true => rw [tick_of_fails h hfails]; exact ticks_faultRest_seq rest.length rfl
    | false => rw [tick_of_not_fails h hfails]; exact ih rfl

/-- Settles O13: the moves reach the end of the command, and none of them changes what that end is. -/
theorem ticksRefineTheRun : Obligations.TicksRefineTheRun := by
  intro s cmd k rest fin hseq
  have hrun : ticks (rest.length + 2) s = runActions rest fin s :=
    calc ticks (rest.length + 2) s
        = finishCommand (ticks (rest.length + 2) s) := (finishCommand_of_idle (ticks_seq_of_running hseq)).symm
      _ = finishCommand s := finishCommand_ticks _ s
      _ = runActions rest fin s := by simp [finishCommand, hseq]
  exact ⟨hrun, by rw [hrun, step_of_running hseq]⟩

end Sys2Proof.Machine
end

section
/-! PROOFS. The statements of the state (10_state.md), continued: what no operation reads, and the two derived views. -/

namespace Sys2Proof.Machine

/-! ## What operations read (R12, R16, R17, 60_exceptions.md R190) -/

/-- Two states that agree on everything an operation reads, and on the trace. -/
structure SameInputs (s s' : State) : Prop where
  cfg : s'.cfg = s.cfg
  rb : s'.rb = s.rb
  responder : s'.responder = s.responder
  chanFaults : s'.chanFaults = s.chanFaults
  draws : s'.draws = s.draws
  trace : s'.trace = s.trace

/-- Two states with the same response (R15). -/
def SameResponse (s s' : State) : Prop := s'.rspCode = s.rspCode ∧ s'.rspResult = s.rspResult

/-- The code an exception writes is fixed by the exception (60_exceptions.md R180). -/
theorem raise_rspCode_congr (e : Exc) (s s' : State) : (raise e s').rspCode = (raise e s).rspCode := by
  cases e <;> rfl

namespace SameInputs

variable {s s' : State}

/-- What is latched or traced before does not matter to a command that is accepted. -/
theorem accept (hcfg : s'.cfg = s.cfg) (hrb : s'.rb = s.rb) (hresp : s'.responder = s.responder)
    (hchan : s'.chanFaults = s.chanFaults) (hdraws : s'.draws = s.draws) (cmd : Instr) (plan : List Action)
    (fin : Finish) : SameInputs (accept cmd plan fin s) (accept cmd plan fin s') :=
  ⟨hcfg, hrb, hresp, hchan, hdraws, rfl⟩

theorem transferFails (h : SameInputs s s') : transferFails s' = transferFails s := by
  simp only [Machine.transferFails, h.cfg, h.chanFaults, h.draws]

theorem nextReply (h : SameInputs s s') : nextReply s' = nextReply s := by
  simp only [Machine.nextReply, h.cfg, h.responder, h.draws]

theorem value (h : SameInputs s s') (src : ByteSource) : src.value s' = src.value s := by
  cases src with
  | const b => rfl
  | rate lo hi => simp only [ByteSource.value, h.cfg, h.rb]

theorem fails (h : SameInputs s s') (a : Action) : a.fails s' = a.fails s := by
  cases a with
  | xfer src slot => exact h.transferFails
  | _ => rfl

theorem useChannel (h : SameInputs s s') : SameInputs (useChannel s) (useChannel s') where
  cfg := h.cfg
  rb := h.rb
  responder := h.responder
  chanFaults := by simp only [useChannel_chanFaults, h.cfg, h.chanFaults]
  draws := by simp only [useChannel_draws, h.draws]
  trace := h.trace

theorem setControlLine (h : SameInputs s s') (l : Line) (v : Level) :
    SameInputs (setControlLine l v s) (setControlLine l v s') where
  cfg := by simpa using h.cfg
  rb := by simpa using h.rb
  responder := by cases l <;> simp [h.cfg, h.responder]
  chanFaults := by simpa using h.chanFaults
  draws := by simpa using h.draws
  trace := by simp [h.trace]

theorem exchange (h : SameInputs s s') (b : Byte) (slot : Option (Fin 6)) :
    SameInputs (exchange b slot s) (exchange b slot s') where
  cfg := by simpa using h.cfg
  rb := by cases slot <;> simp [h.rb, h.nextReply]
  responder := by simp [h.responder]
  chanFaults := by simp [h.cfg, h.chanFaults]
  draws := by simp [h.draws]
  trace := by simp [h.trace, h.nextReply]

theorem perform (h : SameInputs s s') (a : Action) : SameInputs (a.perform s) (a.perform s') := by
  cases a with
  | setLine l v => exact h.setControlLine l v
  | xfer src slot => simpa only [Action.perform, h.value src] using h.exchange (src.value s) slot
  | delay ms => exact { h with trace := by simp [Action.perform, h.trace] }
  | setPayloadWidth w => exact { h with }
  | setLastCfg rx pw => exact { h with }

theorem raise (h : SameInputs s s') (e : Exc) : SameInputs (raise e s) (raise e s') := by
  cases e with
  | invalidOpcode => exact { h with }
  | _ => exact { h with draws := congrArg (· + 1) h.draws }

theorem complete (h : SameInputs s s') (fin : Finish) : SameInputs (complete fin s) (complete fin s') := by
  cases fin with
  | ok => exact { h with draws := congrArg (· + 1) h.draws }
  | channelFault => exact h.raise .channelFault
  | _ => exact { h with }

theorem runActions (h : SameInputs s s') (as : List Action) (fin : Finish) :
    SameInputs (runActions as fin s) (runActions as fin s') := by
  induction as generalizing s s' with
  | nil => exact h.complete fin
  | cons a as ih =>
    cases hfails : a.fails s with
    | true =>
      rw [runActions_cons_of_fails as fin hfails, runActions_cons_of_fails as fin ((h.fails a).trans hfails)]
      exact (h.useChannel.setControlLine .csn .high).complete .channelFault
    | false =>
      rw [runActions_cons_of_not_fails as fin hfails, runActions_cons_of_not_fails as fin ((h.fails a).trans hfails)]
      exact ih (h.perform a)

/-! The response is a function of the inputs too, unless a command delivers none or keeps the old result. -/

theorem raise_rspResult (h : SameInputs s s') {e : Exc} (he : e ≠ .invalidOpcode) :
    (Machine.raise e s').rspResult = (Machine.raise e s).rspResult := by
  cases e with
  | invalidOpcode => exact absurd rfl he
  | _ => exact congrArg Config.freeByte h.draws

theorem complete_response (h : SameInputs s s') {fin : Finish} (hfin : fin ≠ .bus) :
    SameResponse (Machine.complete fin s) (Machine.complete fin s') := by
  cases fin with
  | ok => exact ⟨rfl, congrArg Config.freeByte h.draws⟩
  | okByte v => exact ⟨rfl, rfl⟩
  | okSlot i => exact ⟨rfl, congrArg (·[i]) h.rb⟩
  | bus => exact absurd rfl hfin
  | channelFault => exact ⟨rfl, h.raise_rspResult (by decide)⟩

theorem runActions_response (h : SameInputs s s') (as : List Action) {fin : Finish} (hfin : fin ≠ .bus) :
    SameResponse (Machine.runActions as fin s) (Machine.runActions as fin s') := by
  induction as generalizing s s' with
  | nil => exact h.complete_response hfin
  | cons a as ih =>
    cases hfails : a.fails s with
    | true =>
      rw [runActions_cons_of_fails as fin hfails, runActions_cons_of_fails as fin ((h.fails a).trans hfails)]
      exact (h.useChannel.setControlLine .csn .high).complete_response (by decide)
    | false =>
      rw [runActions_cons_of_not_fails as fin hfails, runActions_cons_of_not_fails as fin ((h.fails a).trans hfails)]
      exact ih (h.perform a)

end SameInputs

/-- A host command delivers a response (R15). -/
theorem finish_ne_bus_of_isHostCommand {cfg : Config} {i : Instr} {plan : List Action} {fin : Finish}
    (hplan : planOf cfg i = .ok (plan, fin)) (hhost : isHostCommand i = true) : fin ≠ .bus := by
  rintro rfl
  fun_cases planOf cfg i <;> simp_all [planOf, isHostCommand]

/-- Only the two reserved operation numbers are rejected with InvalidOpcode (60_exceptions.md R182). -/
theorem eq_reserved_of_planOf_eq_invalidOpcode {cfg : Config} {i : Instr}
    (hplan : planOf cfg i = .error .invalidOpcode) : i = .reservedE ∨ i = .reservedF := by
  fun_cases planOf cfg i <;> simp_all [planOf]

/-- Settles O41: an instruction is rejected or runs one list of actions, fixed by the build, and each action keeps the
agreement on what is read. -/
theorem writeOnlyStateIsNeverRead : Obligations.WriteOnlyStateIsNeverRead := by
  intro i s s' t t' hcfg hrb hresp hchan hdraws ht ht'
  rw [exec_eq] at ht ht'
  cases ht
  cases ht'
  rcases hplan : planOf s.cfg i with e | ⟨plan, fin⟩
  · have hinputs : SameInputs { s with trace := [] } { s' with trace := [] } :=
      ⟨hcfg, hrb, hresp, hchan, hdraws, rfl⟩
    have hend := hinputs.raise e
    rw [outcome_error hplan, outcome_error (hcfg ▸ hplan)]
    refine ⟨hend.trace, hend.rb, hend.responder, fun _ => raise_rspCode_congr e _ _, fun _ hE hF => ?_⟩
    have he : e ≠ .invalidOpcode := by
      rintro rfl
      rcases eq_reserved_of_planOf_eq_invalidOpcode hplan with h | h
      · exact hE h
      · exact hF h
    exact hinputs.raise_rspResult he
  · have hinputs := SameInputs.accept hcfg hrb hresp hchan hdraws i plan fin
    have hend := hinputs.runActions plan fin
    rw [outcome_ok hplan, outcome_ok (hcfg ▸ hplan)]
    have hresponse (hhost : isHostCommand i = true) :=
      hinputs.runActions_response plan (finish_ne_bus_of_isHostCommand hplan hhost)
    exact ⟨hend.trace, hend.rb, hend.responder, fun hhost => (hresponse hhost).left,
      fun hhost _ _ => (hresponse hhost).right⟩

/-! ## The transceiver mode view (R28) -/

@[simp] theorem transceiverMode_complete (fin : Finish) (s : State) :
    transceiverMode (complete fin s) = transceiverMode s := by
  simp only [transceiverMode, complete_lastCfg, complete_ce]

/-- Where nothing can fail, an instruction performs its actions and delivers its response. -/
theorem exec_of_channelCanFault_eq_false {i : Instr} {s t : State} {plan : List Action} {fin : Finish}
    (hc : s.cfg.channelCanFault = false) (hplan : planOf s.cfg i = .ok (plan, fin)) (h : exec i s = .next t) :
    t = complete fin (performAll plan (accept i plan fin s)) := by
  rw [exec_eq, outcome_ok hplan, runCommand_eq_complete _ _ _ _ (.inl hc)] at h
  cases h
  rfl

theorem planOf_transmit (cfg : Config) {n : BitVec 3} (data : List Byte) (h1 : 1 ≤ n.toNat) (h5 : n.toNat ≤ 5) :
    planOf cfg (.transmit n data) = .ok (txPayloadPlan data ++ cePulse cfg, .ok) :=
  if_pos ((payloadLenOk_iff n).mpr ⟨h1, h5⟩)

theorem planOf_receive (cfg : Config) {n : BitVec 3} (h1 : 1 ≤ n.toNat) (h5 : n.toNat ≤ 5) :
    planOf cfg (.receive n) = .ok (.setLine .ce .low :: rxPayloadPlan cfg n.toNat ++ [.setLine .ce .high], .ok) :=
  if_pos ((payloadLenOk_iff n).mpr ⟨h1, h5⟩)

/-! A transaction touches neither the ghost nor CE. -/

@[simp] theorem performAll_transaction_lastCfg (l : List (Byte × Option (Fin 6))) (s : State) :
    (performAll (withTransaction (xfers l)) s).lastCfg = s.lastCfg := by
  rw [performAll_transaction]

@[simp] theorem performAll_transaction_ce (l : List (Byte × Option (Fin 6))) (s : State) :
    (performAll (withTransaction (xfers l)) s).ce = s.ce := by
  rw [performAll_transaction]

/-! What the actions of the commands of R28 leave in the two elements the view reads. -/

theorem transceiverMode_performAll_configure (m : ChipMap) (rx pw : Bool) (s : State) :
    transceiverMode (performAll (configurePlan m rx pw) s) = transceiverMode { s with lastCfg := some (rx, pw) } := by
  simp [transceiverMode, configurePlan, writePlan_eq, performAll_append, Action.perform]

theorem transceiverMode_performAll_enter (m : ChipMap) (rx : Bool) (v : Level) (s : State) :
    transceiverMode (performAll (configurePlan m rx true ++ [.setLine .ce v]) s) =
      transceiverMode { s with lastCfg := some (rx, true), ce := v } := by
  simp [transceiverMode, configurePlan, performAll_append, Action.perform]

theorem transceiverMode_performAll_transmit (cfg : Config) (data : List Byte) (s : State) :
    transceiverMode (performAll (txPayloadPlan data ++ cePulse cfg) s) = transceiverMode { s with ce := .low } := by
  simp [transceiverMode, txPayloadPlan_eq, cePulse, performAll_append, Action.perform]

theorem transceiverMode_performAll_receive (cfg : Config) (count : Nat) (s : State) :
    transceiverMode (performAll (.setLine .ce .low :: rxPayloadPlan cfg count ++ [.setLine .ce .high]) s) =
      transceiverMode { s with ce := .high } := by
  simp [transceiverMode, rxPayloadPlan_eq, performAll_append, Action.perform]

/-- Settles O48: what each command leaves in the ghost and on CE, read by R28's table. -/
theorem modeViewFollowsTheCommands : Obligations.ModeViewFollowsTheCommands := by
  refine ⟨rfl, fun s t hc =>
    ⟨fun rx h => ?_, fun h => ?_, fun h => ?_, fun n data h1 h5 h => ?_, fun n h1 h5 h => ?_⟩⟩
  · rw [exec_of_channelCanFault_eq_false hc rfl h, transceiverMode_complete,
      transceiverMode_performAll_configure]
    rfl
  · rw [exec_of_channelCanFault_eq_false hc rfl h, transceiverMode_complete,
      transceiverMode_performAll_enter]
    rfl
  · rw [exec_of_channelCanFault_eq_false hc rfl h, transceiverMode_complete,
      transceiverMode_performAll_enter]
    rfl
  · rw [exec_of_channelCanFault_eq_false hc (planOf_transmit s.cfg data h1 h5) h, transceiverMode_complete,
      transceiverMode_performAll_transmit]
    constructor <;> intro hlast <;> simp [transceiverMode, hlast]
  · rw [exec_of_channelCanFault_eq_false hc (planOf_receive s.cfg h1 h5) h, transceiverMode_complete,
      transceiverMode_performAll_receive]
    constructor <;> intro hlast <;> simp [transceiverMode, hlast]

/-! ## The resolution view (R29) -/

/-- An action that is performed ends a transaction in the trace exactly if it is `SetLine(CSN, High)`. -/
theorem perform_trace_count_csnHigh (s : State) (a : Action) :
    (a.perform s).trace.count (.line .csn .high) =
      s.trace.count (.line .csn .high) + [a].count (.setLine .csn .high) := by
  cases a with
  | setLine l v => cases l <;> cases v <;> simp [Action.perform]
  | _ => simp [Action.perform]

/-- Where nothing can fail, the position after as many moves as there are actions left, or fewer. -/
theorem ticks_of_channelCanFault_eq_false {s : State} {cmd : Instr} {k : Nat} {rest : List Action} {fin : Finish}
    (n : Nat) (hc : s.cfg.channelCanFault = false) (hseq : s.seq = .running cmd k rest fin) (hn : n ≤ rest.length) :
    (ticks n s).cfg = s.cfg ∧
      (ticks n s).seq = .running cmd (k + eventCount (rest.take n)) (rest.drop n) fin ∧
      (ticks n s).trace.count (.line .csn .high) =
        s.trace.count (.line .csn .high) + (rest.take n).count (.setLine .csn .high) := by
  induction n generalizing s k rest with
  | zero => simp [ticks, hseq, eventCount]
  | succ n ih =>
    obtain ⟨a, rest, rfl⟩ := List.exists_cons_of_length_pos (Nat.lt_of_lt_of_le n.succ_pos hn)
    have htick := tick_of_not_fails hseq (fails_of_channelCanFault_eq_false hc a)
    have hcfg : (tick s).cfg = s.cfg := by rw [htick]; exact perform_cfg s a
    have hcount := perform_trace_count_csnHigh s a
    obtain ⟨hcfg', hseq', hcount'⟩ := ih (hcfg ▸ hc) (by rw [htick]) (Nat.le_of_succ_le_succ hn)
    refine ⟨hcfg'.trans hcfg, ?_, ?_⟩
    · rw [ticks, hseq', List.take_succ_cons, List.drop_succ_cons, eventCount]
      split <;> simp [Nat.add_assoc]
    · rw [ticks, hcount', htick, List.take_succ_cons, ← List.singleton_append, List.count_append, ← Nat.add_assoc]
      exact congrArg (· + _) hcount

theorem ticks_add (m n : Nat) (s : State) : ticks (m + n) s = ticks n (ticks m s) := by
  induction m generalizing s with
  | zero => rw [Nat.zero_add, ticks]
  | succ m ih => rw [Nat.succ_add, ticks, ih, ticks]

/-- Where nothing can fail, the block is Idle once more moves have been made than there are actions. -/
theorem ticks_seq_of_length_lt {s : State} {cmd : Instr} {k : Nat} {rest : List Action} {fin : Finish} {n : Nat}
    (hc : s.cfg.channelCanFault = false) (hseq : s.seq = .running cmd k rest fin) (hn : rest.length < n) :
    (ticks n s).seq = .idle := by
  obtain ⟨j, rfl⟩ := Nat.exists_eq_add_of_lt hn
  obtain ⟨-, hlast, -⟩ := ticks_of_channelCanFault_eq_false rest.length hc hseq (Nat.le_refl _)
  rw [List.drop_length] at hlast
  rw [Nat.add_assoc, ticks_add, ticks, tick_of_nil hlast, ticks_of_idle j (complete_seq fin _)]
  exact complete_seq fin _

/-- Where every action is an event, `k` counts the actions. -/
theorem eventCount_eq_length {as : List Action} (h : ∀ a ∈ as, a.isEvent = true) : eventCount as = as.length := by
  induction as with
  | nil => rfl
  | cons a as ih =>
    obtain ⟨ha, has⟩ := List.forall_mem_cons.mp h
    rw [eventCount, ih has, if_pos ha, List.length_cons, Nat.add_comm]

theorem isEvent_of_mem_transaction (l : List (Byte × Option (Fin 6))) :
    ∀ a ∈ withTransaction (xfers l), a.isEvent = true := by
  simp only [withTransaction, xfers, List.cons_append, List.forall_mem_cons, List.forall_mem_append,
    List.forall_mem_map]
  exact ⟨rfl, fun _ _ => rfl, rfl, List.forall_mem_nil _⟩

theorem count_csnHigh_xfers (l : List (Byte × Option (Fin 6))) : (xfers l).count (.setLine .csn .high) = 0 :=
  List.count_eq_zero.mpr (by simp [xfers])

/-- A transaction ends once. -/
theorem count_csnHigh_transaction (l : List (Byte × Option (Fin 6))) :
    (withTransaction (xfers l)).count (.setLine .csn .high) = 1 := by
  simp [withTransaction, List.count_append, count_csnHigh_xfers]

/-- The actions of respondToInterrupt before the last of its third STATUS write (44_interrupt_status.md R160, R161). -/
def pendingActions (cfg : Config) : List Action :=
  readPlan cfg cfg.map.addrStatus 1 ++ writePlan cfg.map.addrStatus [rxDrMask cfg.map] ++
    writePlan cfg.map.addrStatus [txDsMask cfg.map] ++
    .setLine .csn .low :: xfers (discarded [(BusCommand.wRegister cfg.map.addrStatus).byte, maxRtMask cfg.map])

theorem respondPlan_eq (cfg : Config) :
    readPlan cfg cfg.map.addrStatus 1 ++ clearInterruptsPlan cfg.map =
      pendingActions cfg ++ .setLine .csn .high :: flushTxPlan := by
  simp [clearInterruptsPlan, pendingActions, writePlan_eq cfg.map.addrStatus [maxRtMask cfg.map], withTransaction]

theorem length_pendingActions (cfg : Config) :
    (pendingActions cfg).length + 1 = statusReadEvents cfg + clearWriteEvents := by
  cases hcap : cfg.rdCaptureCmd <;>
    simp [pendingActions, readPlan, readBody, writePlan, withTransaction, slots, xfers, discarded, statusReadEvents,
      clearWriteEvents, hcap]

/-- Three transactions end in them. -/
theorem count_csnHigh_pendingActions (cfg : Config) : (pendingActions cfg).count (.setLine .csn .high) = 3 := by
  simp [pendingActions, readPlan_eq, writePlan_eq, List.count_append, count_csnHigh_transaction, count_csnHigh_xfers]

theorem isEvent_of_mem_respondPlan (cfg : Config) :
    ∀ a ∈ readPlan cfg cfg.map.addrStatus 1 ++ clearInterruptsPlan cfg.map, a.isEvent = true := by
  simp only [readPlan_eq, clearInterruptsPlan, writePlan_eq, flushTxPlan_eq, List.forall_mem_append]
  exact ⟨isEvent_of_mem_transaction _, ⟨⟨isEvent_of_mem_transaction _, isEvent_of_mem_transaction _⟩,
    isEvent_of_mem_transaction _⟩, isEvent_of_mem_transaction _⟩

/-- Four transactions have ended exactly when the third STATUS write has. -/
theorem count_csnHigh_take_lt_four_iff (cfg : Config) (n : Nat) :
    ((pendingActions cfg ++ .setLine .csn .high :: flushTxPlan).take n).count (.setLine .csn .high) < 4 ↔
      n < (pendingActions cfg).length + 1 := by
  have hcount := count_csnHigh_pendingActions cfg
  rcases Nat.lt_or_ge n ((pendingActions cfg).length + 1) with hn | hn
  · have hle := (List.take_sublist n (pendingActions cfg)).count_le (.setLine .csn .high)
    rw [List.take_append_of_le_length (Nat.le_of_lt_succ hn)]
    omega
  · obtain ⟨j, rfl⟩ := Nat.exists_eq_add_of_le hn
    have htake : (pendingActions cfg ++ .setLine .csn .high :: flushTxPlan).take ((pendingActions cfg).length + 1 + j) =
        pendingActions cfg ++ .setLine .csn .high :: flushTxPlan.take j := by
      rw [Nat.add_assoc, List.take_length_add_append, Nat.add_comm 1 j, List.take_succ_cons]
    rw [htake, List.count_append, List.count_cons_self]
    omega

/-- Settles O49: with every action an event, `k` is the number of actions performed, and the fourth of them that ends a
transaction is the last of the third write. -/
theorem resolutionViewFollowsTheWrites : Obligations.ResolutionViewFollowsTheWrites := by
  rintro s _ n hc rfl
  rw [respondPlan_eq]
  set plan := pendingActions s.cfg ++ .setLine .csn .high :: flushTxPlan
  rcases Nat.lt_or_ge plan.length n with hn | hn
  · have hidle := ticks_seq_of_length_lt (s := accept .respondIrq plan (.okSlot 0) s) hc rfl hn
    exact .inl ⟨hidle, by simp [resolution, hidle]⟩
  · obtain ⟨hcfg, hseq, hcount⟩ :=
      ticks_of_channelCanFault_eq_false (s := accept .respondIrq plan (.okSlot 0) s) n hc rfl hn
    have hevents : eventCount (plan.take n) = n := by
      rw [eventCount_eq_length fun a ha => isEvent_of_mem_respondPlan s.cfg a
        (by rw [respondPlan_eq]; exact List.mem_of_mem_take ha), List.length_take_of_le hn]
    have hfour : (plan.take n).count (.setLine .csn .high) < 4 ↔ n < statusReadEvents s.cfg + clearWriteEvents := by
      rw [← length_pendingActions]; exact count_csnHigh_take_lt_four_iff s.cfg n
    refine .inr ⟨by rw [hseq]; exact Seq.noConfusion, ?_⟩
    rw [accept_trace, List.count_nil, Nat.zero_add] at hcount
    rw [hevents, Nat.zero_add] at hseq
    simp only [resolution, hseq, hcfg, hcount, hfour, accept_cfg]

end Sys2Proof.Machine
end

section
/-! PROOFS. The statements of the responder (20_memory.md): the replies of a command are the responder's, and nothing
else of the responder reaches the block (R53). -/

namespace Sys2Proof.Machine

/-! ## The transfers of a trace -/

@[simp] theorem transfers_append (es fs : List Event) : transfers (es ++ fs) = transfers es ++ transfers fs :=
  List.filterMap_append

theorem eq_xfer_or_xferCount_eq_zero (a : Action) : (∃ src slot, a = .xfer src slot) ∨ xferCount [a] = 0 := by
  cases a with
  | xfer src slot => exact .inl ⟨src, slot, rfl⟩
  | _ => exact .inr rfl

theorem perform_transfers_of_not_xfer (s : State) {a : Action} (h : xferCount [a] = 0) :
    transfers (a.perform s).trace = transfers s.trace := by
  cases a with
  | xfer src slot => cases h
  | _ => simp [Action.perform, transfers]

theorem perform_transfers_of_xfer (s : State) (src : ByteSource) (slot : Option (Fin 6)) :
    transfers (Action.perform s (.xfer src slot)).trace = transfers s.trace ++ [(src.value s, nextReply s)] := by
  simp [Action.perform, transfers]

/-- Where nothing fails, every transfer among the actions is one of the trace. -/
theorem length_transfers_performAll (as : List Action) (s : State) :
    (transfers (performAll as s).trace).length = (transfers s.trace).length + xferCount as := by
  induction as generalizing s with
  | nil => rfl
  | cons a as ih =>
    rw [performAll_cons, ih, ← List.singleton_append, xferCount_append]
    obtain ⟨src, slot, rfl⟩ | ha := eq_xfer_or_xferCount_eq_zero a
    · simp [perform_transfers_of_xfer, xferCount, Nat.add_assoc]
    · rw [perform_transfers_of_not_xfer s ha, ha, Nat.zero_add]

/-! ## A script of replies -/

theorem perform_oracle_of_not_xfer {s : State} {a : Action} {script : List Byte} (h : xferCount [a] = 0)
    (hresp : s.responder = .oracle script) : (a.perform s).responder = .oracle script := by
  cases a with
  | xfer src slot => cases h
  | setLine l v => cases l <;> simp [Action.perform, Responder.onCsn, hresp]
  | _ => exact hresp

theorem nextReply_oracle_cons {s : State} {v : Byte} {script : List Byte}
    (hresp : s.responder = .oracle (v :: script)) : nextReply s = v := by
  simp [nextReply, hresp, Responder.reply]

/-- Actions of which none fails take their replies off the script. -/
theorem performAll_oracle (as : List Action) {s : State} {script : List Byte} (hresp : s.responder = .oracle script)
    (hlen : xferCount as ≤ script.length) :
    (transfers (performAll as s).trace).map Prod.snd =
        (transfers s.trace).map Prod.snd ++ script.take (xferCount as) ∧
      (performAll as s).responder = .oracle (script.drop (xferCount as)) := by
  induction as generalizing s script with
  | nil => simp [xferCount, hresp]
  | cons a as ih =>
    obtain ⟨src, slot, rfl⟩ | ha := eq_xfer_or_xferCount_eq_zero a
    · obtain ⟨v, script, rfl⟩ := List.exists_cons_of_length_pos (Nat.zero_lt_of_lt hlen)
      have hnext : (Action.perform s (.xfer src slot)).responder = .oracle script := by
        simp [Action.perform, hresp, Responder.receive]
      obtain ⟨htrace, hend⟩ := ih hnext (Nat.le_of_succ_le_succ hlen)
      rw [performAll_cons, htrace, hend, perform_transfers_of_xfer, nextReply_oracle_cons hresp]
      simp [xferCount]
    · rw [← List.singleton_append, xferCount_append, ha, Nat.zero_add] at hlen ⊢
      rw [← perform_transfers_of_not_xfer s ha]
      exact ih (perform_oracle_of_not_xfer ha hresp) hlen

/-- Settles O39: a rejected instruction makes no transfer; any other performs its actions, from an empty trace. -/
theorem scriptedRepliesArriveInOrder : Obligations.ScriptedRepliesArriveInOrder := by
  intro i s t script hc hresp ht hlen
  rcases hplan : planOf s.cfg i with e | ⟨plan, fin⟩
  · rw [exec_eq, outcome_error hplan] at ht
    cases ht
    simp [reject, transfers, hresp]
  · rw [exec_of_channelCanFault_eq_false hc hplan ht, complete_trace] at hlen ⊢
    have hcount : (transfers (performAll plan (accept i plan fin s)).trace).length = xferCount plan :=
      (length_transfers_performAll plan (accept i plan fin s)).trans (Nat.zero_add _)
    rw [hcount] at hlen ⊢
    rw [complete_responder]
    exact performAll_oracle plan (s := accept i plan fin s) hresp hlen

/-! ## The replies are all that reaches the block -/

section WithResponder

variable (s : State) (r : Responder)

theorem fails_with_responder (a : Action) : a.fails { s with responder := r } = a.fails s := by
  cases a <;> rfl

theorem complete_with_responder (fin : Finish) :
    complete fin { s with responder := r } = { complete fin s with responder := r } := by
  cases fin <;> rfl

theorem setControlLine_with_responder (l : Line) (v : Level) :
    ∃ r', setControlLine l v { s with responder := r } = { setControlLine l v s with responder := r' } := by
  cases l <;> exact ⟨_, rfl⟩

/-- An action does the same for another responder that gives the same reply. -/
theorem perform_with_responder (a : Action)
    (hreply : (∃ src slot, a = .xfer src slot) → nextReply { s with responder := r } = nextReply s) :
    ∃ r', a.perform { s with responder := r } = { a.perform s with responder := r' } := by
  cases a with
  | setLine l v => exact setControlLine_with_responder s r l v
  | xfer src slot =>
    have hvalue : src.value { s with responder := r } = src.value s := by cases src <;> rfl
    refine ⟨r.receive (src.value s), ?_⟩
    simp only [Action.perform, exchange, hreply ⟨src, slot, rfl⟩, hvalue]
    cases slot <;> rfl
  | _ => exact ⟨_, rfl⟩

end WithResponder

/-- Running actions only adds to the trace. -/
theorem trace_prefix_runActions (as : List Action) (fin : Finish) (s : State) :
    s.trace <+: (runActions as fin s).trace := by
  refine runActions_keeps (fun t => s.trace <+: t.trace) as fin s (List.prefix_refl _) ?_ ?_ ?_
  · intro t h
    simpa using h
  · intro t a h
    cases hevent : a.isEvent with
    | true =>
      obtain ⟨e, he⟩ := perform_trace_of_isEvent t hevent
      exact he ▸ h.trans (List.prefix_append _ _)
    | false => exact (perform_trace_of_not_isEvent t hevent).symm ▸ h
  · intro t f h
    simpa using h

/-- Commands that begin with a transfer and receive the same replies receive the same first reply. -/
theorem nextReply_eq_of_replies_eq {s s' : State} {src : ByteSource} {slot : Option (Fin 6)} {as : List Action}
    {fin : Finish} (htrace : s'.trace = s.trace)
    (h : (transfers (runActions as fin (Action.perform s (.xfer src slot))).trace).map Prod.snd =
      (transfers (runActions as fin (Action.perform s' (.xfer src slot))).trace).map Prod.snd) :
    nextReply s' = nextReply s := by
  obtain ⟨more, hmore⟩ := trace_prefix_runActions as fin (Action.perform s (.xfer src slot))
  obtain ⟨more', hmore'⟩ := trace_prefix_runActions as fin (Action.perform s' (.xfer src slot))
  have hfirst := congrArg (·[(transfers s.trace).length]?) h
  simpa [← hmore, ← hmore', perform_transfers_of_xfer, htrace] using hfirst.symm

/-- Running actions does the same for another responder that gives the same replies. -/
theorem runActions_with_responder (as : List Action) (fin : Finish) (s : State) (r : Responder)
    (h : (transfers (runActions as fin s).trace).map Prod.snd =
      (transfers (runActions as fin { s with responder := r }).trace).map Prod.snd) :
    ∃ r', runActions as fin { s with responder := r } = { runActions as fin s with responder := r' } := by
  induction as generalizing s r with
  | nil => exact ⟨r, complete_with_responder s r fin⟩
  | cons a as ih =>
    have hfails' := fails_with_responder s r a
    cases hfails : a.fails s with
    | true =>
      rw [runActions_cons_of_fails as fin hfails, runActions_cons_of_fails as fin (hfails'.trans hfails)]
      obtain ⟨r', hr'⟩ := setControlLine_with_responder (useChannel s) r .csn .high
      exact ⟨r', (congrArg (complete .channelFault) hr').trans (complete_with_responder _ r' _)⟩
    | false =>
      rw [runActions_cons_of_not_fails as fin hfails,
        runActions_cons_of_not_fails as fin (hfails'.trans hfails)] at h ⊢
      have hreply : (∃ src slot, a = .xfer src slot) → nextReply { s with responder := r } = nextReply s := by
        rintro ⟨src, slot, rfl⟩
        exact nextReply_eq_of_replies_eq rfl h
      obtain ⟨r', hr'⟩ := perform_with_responder s r a hreply
      rw [hr'] at h ⊢
      exact ih (a.perform s) r' h

/-- Settles O40: the actions are fixed by the build, and the two runs of them go in step as long as the replies agree. -/
theorem onlyTheRepliesMatter : Obligations.OnlyTheRepliesMatter := by
  intro i s t t' other ht ht' hreplies
  rw [exec_eq] at ht ht'
  cases ht
  cases ht'
  rcases hplan : planOf s.cfg i with e | ⟨plan, fin⟩
  · rw [outcome_error hplan, outcome_error (s := { s with responder := other }) hplan]
    cases e <;> rfl
  · rw [outcome_ok hplan, outcome_ok (s := { s with responder := other }) hplan] at hreplies ⊢
    obtain ⟨r', hr'⟩ := runActions_with_responder plan fin (accept i plan fin s) other hreplies
    have hrun : runCommand i plan fin { s with responder := other } =
        { runCommand i plan fin s with responder := r' } := hr'
    rw [hrun]

end Sys2Proof.Machine
end

section
/-! PROOFS. The statements of the reference responders (20_memory.md R54, R55): what a transaction of the block leaves
in the chip, whether it runs to its end or a transfer of it fails. -/

namespace Sys2Proof.Machine

/-! ## What the bus does to a chip -/

/-- The reference responder with a chip: the DLR, which labels its replies as the document does, or the DTR. -/
def reference (labelled : Bool) (c : Chip) : Responder := if labelled then .dlr c else .dtr c

@[simp] theorem reference_true (c : Chip) : reference true c = .dlr c := rfl

@[simp] theorem reference_false (c : Chip) : reference false c = .dtr c := rfl

@[simp] theorem onCsn_reference (m : ChipMap) (v : Level) (labelled : Bool) (c : Chip) :
    (reference labelled c).onCsn m v = reference labelled (c.onCsn m v) := by
  cases labelled <;> rfl

@[simp] theorem receive_reference (b : Byte) (labelled : Bool) (c : Chip) :
    (reference labelled c).receive b = reference labelled (c.receive b) := by
  cases labelled <;> rfl

namespace Chip

variable (m : ChipMap) (c : Chip)

/-- The chip in the middle of a transaction in which `sent` has been received. -/
def during (sent : List Byte) : Chip := { c with txn := some sent }

@[simp] theorem receive_during (sent : List Byte) (b : Byte) :
    (c.during sent).receive b = c.during (sent ++ [b]) := rfl

theorem onCsn_low {c : Chip} (h : c.txn = none) : c.onCsn m .low = c.during [] := by
  simp [onCsn, h, during]

/-- What is committed does not depend on the open transaction, which it keeps. -/
theorem commit_with_txn (txn : Option (List Byte)) (frame : List Byte) :
    ({ c with txn := txn } : Chip).commit m frame = { c.commit m frame with txn := txn } := by
  cases frame with
  | nil => rfl
  | cons b d => simp only [commit]; split <;> (try split) <;> rfl

@[simp] theorem commit_txn (frame : List Byte) : (c.commit m frame).txn = c.txn :=
  (congrArg Chip.txn (commit_with_txn m c c.txn frame) :)

theorem onCsn_high_during {c : Chip} (h : c.txn = none) (sent : List Byte) :
    (c.during sent).onCsn m .high = c.commit m sent := by
  have hcommit : (c.during sent).onCsn m .high = { (c.during sent).commit m sent with txn := none } := rfl
  rw [hcommit, during, commit_with_txn, ← h, ← commit_with_txn]

/-! What each command of the block leaves. -/

theorem commit_wRegister (a : RegAddr) (d : List Byte) :
    ∃ regs, c.commit m ((BusCommand.wRegister a).byte :: d) = { c with regs := regs } := by
  simp only [commit, busCommand_byte]
  exact ⟨_, rfl⟩

theorem commit_wTxPayload (d : List Byte) :
    c.commit m (BusCommand.wTxPayload.byte :: d) =
      { c with txFifo := if c.txFifo.length < 3 then c.txFifo ++ [d] else c.txFifo } := by
  by_cases h : c.txFifo.length < 3 <;> simp [commit, Config.fifoDepth, h]

theorem commit_rRxPayload (d : List Byte) :
    c.commit m (BusCommand.rRxPayload.byte :: d) = { c with rxFifo := c.rxFifo.tail } := by
  simp only [commit, busCommand_byte]

theorem commit_flushTx (d : List Byte) :
    c.commit m (BusCommand.flushTx.byte :: d) = { c with txFifo := [] } := by
  simp only [commit, busCommand_byte]

theorem commit_flushRx (d : List Byte) :
    c.commit m (BusCommand.flushRx.byte :: d) = { c with rxFifo := [] } := by
  simp only [commit, busCommand_byte]

end Chip

/-! ## A transaction that runs to its end -/

section Transaction

variable {labelled : Bool} {s : State} {c : Chip}

theorem performAll_xfers_reference (l : List (Byte × Option (Fin 6))) {sent : List Byte}
    (h : s.responder = reference labelled (c.during sent)) :
    (performAll (xfers l) s).responder = reference labelled (c.during (sent ++ l.map Prod.fst)) := by
  induction l generalizing s sent with
  | nil => simpa [xfers] using h
  | cons p l ih =>
    have hnext : (exchange p.1 p.2 s).responder = reference labelled (c.during (sent ++ [p.1])) := by simp [h]
    have hrest := ih hnext
    rw [List.append_assoc] at hrest
    exact hrest

/-- A transaction that runs to its end is committed with all its bytes. -/
theorem performAll_transaction_reference (l : List (Byte × Option (Fin 6)))
    (h : s.responder = reference labelled c) (htxn : c.txn = none) :
    (performAll (withTransaction (xfers l)) s).responder =
      reference labelled (c.commit s.cfg.map (l.map Prod.fst)) := by
  have hopen : (setControlLine .csn .low s).responder = reference labelled (c.during []) := by
    simp [h, Chip.onCsn_low s.cfg.map htxn]
  have hbody := performAll_xfers_reference l hopen
  have hcfg : (performAll (xfers l) (setControlLine .csn .low s)).cfg = s.cfg := by
    rw [performAll_xfers]; simp
  calc (performAll (withTransaction (xfers l)) s).responder
      = (setControlLine .csn .high (performAll (xfers l) (setControlLine .csn .low s))).responder := by
        simp [withTransaction, performAll_append, Action.perform]
    _ = reference labelled (c.commit s.cfg.map (l.map Prod.fst)) := by
        simp [hbody, hcfg, Chip.onCsn_high_during s.cfg.map htxn]

theorem performAll_writePlan_reference (a : RegAddr) (bytes : List Byte) (h : s.responder = reference labelled c)
    (htxn : c.txn = none) :
    ∃ regs, (performAll (writePlan a bytes) s).responder = reference labelled { c with regs := regs } := by
  obtain ⟨regs, hregs⟩ := c.commit_wRegister s.cfg.map a bytes
  refine ⟨regs, ?_⟩
  rw [writePlan_eq, performAll_transaction_reference _ h htxn, discarded_fst, hregs]

theorem performAll_txPayloadPlan_reference (data : List Byte) (h : s.responder = reference labelled c)
    (htxn : c.txn = none) :
    (performAll (txPayloadPlan data) s).responder =
      reference labelled { c with txFifo := if c.txFifo.length < 3 then c.txFifo ++ [data] else c.txFifo } := by
  rw [txPayloadPlan_eq, performAll_transaction_reference _ h htxn, discarded_fst, Chip.commit_wTxPayload]

theorem performAll_rxPayloadPlan_reference {count : Nat} (hcount : count ≤ 5) (cfg : Config)
    (h : s.responder = reference labelled c) (htxn : c.txn = none) :
    (performAll (rxPayloadPlan cfg count) s).responder = reference labelled { c with rxFifo := c.rxFifo.tail } := by
  rw [rxPayloadPlan_eq, performAll_transaction_reference _ h htxn, readList_fst _ _ _ hcount, Chip.commit_rRxPayload]

theorem performAll_flushTxPlan_reference (h : s.responder = reference labelled c) (htxn : c.txn = none) :
    (performAll flushTxPlan s).responder = reference labelled { c with txFifo := [] } := by
  rw [flushTxPlan_eq, performAll_transaction_reference _ h htxn, discarded_fst, Chip.commit_flushTx]

theorem performAll_flushRxPlan_reference (h : s.responder = reference labelled c) (htxn : c.txn = none) :
    (performAll flushRxPlan s).responder = reference labelled { c with rxFifo := [] } := by
  rw [flushRxPlan_eq, performAll_transaction_reference _ h htxn, discarded_fst, Chip.commit_flushRx]

/-- Three register writes, and the flush (44_interrupt_status.md R161). -/
theorem performAll_clearInterruptsPlan_reference (m : ChipMap) (h : s.responder = reference labelled c)
    (htxn : c.txn = none) :
    ∃ regs, (performAll (clearInterruptsPlan m) s).responder =
      reference labelled { c with regs := regs, txFifo := [] } := by
  simp only [clearInterruptsPlan, performAll_append]
  obtain ⟨_, h₁⟩ := performAll_writePlan_reference m.addrStatus [rxDrMask m] h htxn
  obtain ⟨_, h₂⟩ := performAll_writePlan_reference m.addrStatus [txDsMask m] h₁ htxn
  obtain ⟨regs, h₃⟩ := performAll_writePlan_reference m.addrStatus [maxRtMask m] h₂ htxn
  exact ⟨regs, performAll_flushTxPlan_reference h₃ htxn⟩

end Transaction

/-! CE and the delay do not reach the chip. -/

@[simp] theorem perform_ce_responder (v : Level) (s : State) :
    (Action.perform s (.setLine .ce v)).responder = s.responder := rfl

@[simp] theorem performAll_cePulse_responder (cfg : Config) (s : State) :
    (performAll (cePulse cfg) s).responder = s.responder := rfl

/-- Settles O45: each command is one transaction, clearInterrupts four. -/
theorem payloadCommandsMoveTheFifos : Obligations.PayloadCommandsMoveTheFifos := by
  intro s t c hc hresp htxn
  have hstart (cmd : Instr) (plan : List Action) (fin : Finish) :
      (accept cmd plan fin s).responder = reference true c := hresp
  refine ⟨fun n data _ h1 h5 h => ?_, fun n h1 h5 h => ?_, fun h => ?_, fun h => ?_, fun h => ?_⟩
  · rw [exec_of_channelCanFault_eq_false hc (planOf_transmit s.cfg data h1 h5) h, complete_responder,
      performAll_append, performAll_cePulse_responder]
    exact performAll_txPayloadPlan_reference data (hstart ..) htxn
  · rw [exec_of_channelCanFault_eq_false hc (planOf_receive s.cfg h1 h5) h, complete_responder, performAll_append,
      performAll_cons, performAll_cons, performAll_nil, perform_ce_responder]
    exact performAll_rxPayloadPlan_reference h5 s.cfg ((perform_ce_responder ..).trans (hstart ..)) htxn
  · rw [exec_of_channelCanFault_eq_false hc rfl h, complete_responder]
    exact performAll_flushTxPlan_reference (hstart ..) htxn
  · rw [exec_of_channelCanFault_eq_false hc rfl h, complete_responder]
    exact performAll_flushRxPlan_reference (hstart ..) htxn
  · rw [exec_of_channelCanFault_eq_false hc rfl h, complete_responder]
    obtain ⟨regs, hregs⟩ := performAll_clearInterruptsPlan_reference s.cfg.map (hstart ..) htxn
    exact ⟨_, hregs, rfl, rfl⟩

end Sys2Proof.Machine
end

section
/-! PROOFS. The statements of the reference responders (20_memory.md R54, R55), continued: the shape of the chip, at
every way a transaction can end (60_exceptions.md R183). -/

namespace Sys2Proof

/-! ## What is decoded is well formed (30_encoding.md R71 b, R75) -/

theorem HostWord.length_bytes (w : HostWord) : w.bytes.length = dataLen w.n := by
  simp [HostWord.bytes, dataLen]

theorem decodeHost_wf (w : HostWord) : (decodeHost w).wf = true := by
  fun_cases decodeHost w <;> simp [Instr.wf, HostWord.length_bytes]

theorem decodeFrame_wf {capture : Bool} {frame : List Byte} {i : Instr} (h : decodeFrame capture frame = .ok i) :
    i.wf = true := by
  rcases frame with _ | ⟨b, body⟩
  · cases h
  rcases hcmd : busCommand b with _ | cmd
  · simp [decodeFrame, hcmd] at h
  cases cmd with
  | rRegister a =>
    simp only [decodeFrame, hcmd] at h
    cases hcount : readCount capture body <;> rw [hcount] at h <;> cases h
    rfl
  | rRxPayload =>
    simp only [decodeFrame, hcmd] at h
    split at h
    · split at h <;> cases h
      exact decide_eq_true ‹_›
    · cases h
  | _ =>
    simp only [decodeFrame, hcmd] at h
    split at h <;> cases h
    simp_all [Instr.wf, Config.payloadMin, Config.payloadMax]

theorem decode_wf {cfg : Config} {r : Request} {i : Instr} (h : decode cfg r = .ok i) : i.wf = true := by
  cases r with
  | host w => cases h; exact decodeHost_wf w
  | bus frame => exact decodeFrame_wf h

end Sys2Proof

namespace Sys2Proof.Machine

/-! ## What is committed keeps the shape of the chip -/

/-- `n` data bytes fit the command `cmd`: a register write has at most the five bytes a register holds (R54). -/
def DataFits (cmd : Byte) (n : Nat) : Prop := ∀ a, busCommand cmd = some (.wRegister a) → n ≤ 5

/-- The bytes of a transaction, cut off anywhere, fit its command. -/
def FrameFits : List Byte → Prop
  | [] => True
  | cmd :: d => DataFits cmd d.length

theorem DataFits.mono {cmd : Byte} {m n : Nat} (h : DataFits cmd n) (hmn : m ≤ n) : DataFits cmd m :=
  fun a ha => hmn.trans (h a ha)

theorem dataFits_byte_of_ne_wRegister {cmd : BusCommand} (n : Nat) (h : ∀ a, cmd ≠ .wRegister a) :
    DataFits cmd.byte n := by
  intro a ha
  rw [busCommand_byte] at ha
  exact absurd (Option.some.inj ha) (h a)

theorem length_storeBytes (old d : List Byte) : (storeBytes old d).length = max old.length d.length := by
  simp only [storeBytes, List.length_append, List.length_drop]
  omega

theorem length_storeStatus (m : ChipMap) (old d : List Byte) : (storeStatus m old d).length = old.length := by
  cases old <;> cases d <;> rfl

namespace Chip

theorem wf_iff (c : Chip) :
    c.wf = true ↔ (∀ r ∈ c.regs, 1 ≤ r.length ∧ r.length ≤ 5) ∧ c.txFifo.length ≤ Config.fifoDepth ∧
      c.rxFifo.length ≤ Config.fifoDepth := by
  simp [wf, and_assoc, Vector.forall_mem_iff_forall_getElem]

theorem wf_set {c : Chip} (hwf : c.wf = true) (i : Fin 32) {new : List Byte} (h1 : 1 ≤ new.length)
    (h5 : new.length ≤ 5) : ({ c with regs := c.regs.set i new } : Chip).wf = true := by
  obtain ⟨hregs, hfifos⟩ := c.wf_iff.mp hwf
  refine (wf_iff _).mpr ⟨fun r hr => ?_, hfifos⟩
  rcases Vector.mem_or_eq_of_mem_set (hi := i.isLt) hr with hr | rfl
  · exact hregs r hr
  · exact ⟨h1, h5⟩

theorem wf_commit (m : ChipMap) {c : Chip} {frame : List Byte} (hwf : c.wf = true) (hfits : FrameFits frame) :
    (c.commit m frame).wf = true := by
  rcases frame with _ | ⟨b, d⟩
  · exact hwf
  obtain ⟨hregs, htx, hrx⟩ := c.wf_iff.mp hwf
  rcases hcmd : busCommand b with _ | cmd
  · simpa only [commit, hcmd] using hwf
  cases cmd with
  | wRegister a =>
    obtain ⟨h1, h5⟩ := hregs c.regs[a.toFin] (Vector.getElem_mem _)
    have hd := hfits a hcmd
    simp only [commit, hcmd]
    split
    · exact wf_set hwf a.toFin (by rw [length_storeStatus]; exact h1) (by rw [length_storeStatus]; exact h5)
    · exact wf_set hwf a.toFin (by rw [length_storeBytes]; omega) (by rw [length_storeBytes]; omega)
  | wTxPayload =>
    simp only [commit, hcmd]
    split
    · exact (wf_iff _).mpr ⟨hregs, by simpa using ‹_›, hrx⟩
    · exact hwf
  | rRxPayload =>
    simp only [commit, hcmd]
    exact (wf_iff _).mpr ⟨hregs, htx, by rw [List.length_tail]; omega⟩
  | flushTx =>
    simp only [commit, hcmd]
    exact (wf_iff _).mpr ⟨hregs, Nat.zero_le _, hrx⟩
  | flushRx =>
    simp only [commit, hcmd]
    exact (wf_iff _).mpr ⟨hregs, htx, Nat.zero_le _⟩
  | rRegister a => simpa only [commit, hcmd] using hwf

end Chip

/-! ## The plans of the block, as what reaches the chip -/

/-- Actions made of whole transactions whose data fit, and of actions that do not reach the chip. -/
inductive BusPlan : List Action → Prop
  | nil : BusPlan []
  | ce (v : Level) : BusPlan [.setLine .ce v]
  | delay (ms : BitVec 32) : BusPlan [.delay ms]
  | setPayloadWidth (w : Byte) : BusPlan [.setPayloadWidth w]
  | setLastCfg (rx pw : Bool) : BusPlan [.setLastCfg rx pw]
  | transaction {cmd : Byte} (slot : Option (Fin 6)) {body : List Action} (hfits : DataFits cmd body.length)
      (hbody : ∀ a ∈ body, ∃ src slot, a = .xfer src slot) :
      BusPlan (withTransaction (.xfer (.const cmd) slot :: body))
  | append {as bs : List Action} : BusPlan as → BusPlan bs → BusPlan (as ++ bs)

namespace BusPlan

theorem writePlan (a : RegAddr) {bytes : List Byte} (h : bytes.length ≤ 5) : BusPlan (writePlan a bytes) :=
  .transaction none (fun _ _ => by simpa using h) (by simp [send])

theorem txPayloadPlan (data : List Byte) : BusPlan (txPayloadPlan data) :=
  .transaction none (dataFits_byte_of_ne_wRegister _ (by simp)) (by simp [send])

theorem flushTxPlan : BusPlan flushTxPlan :=
  .transaction none (dataFits_byte_of_ne_wRegister _ (by simp)) (by simp)

theorem flushRxPlan : BusPlan flushRxPlan :=
  .transaction none (dataFits_byte_of_ne_wRegister _ (by simp)) (by simp)

theorem readBody {cmd : BusCommand} (h : ∀ a, cmd ≠ .wRegister a) (cfg : Config) (count : Nat) :
    BusPlan (withTransaction (readBody cfg cmd.byte count)) := by
  rw [Machine.readBody]
  split <;> exact .transaction _ (dataFits_byte_of_ne_wRegister _ h)
    (List.forall_mem_map.mpr fun _ _ => ⟨_, _, rfl⟩)

theorem readPlan (cfg : Config) (a : RegAddr) (count : Nat) : BusPlan (readPlan cfg a count) :=
  readBody (by simp) cfg count

theorem rxPayloadPlan (cfg : Config) (count : Nat) : BusPlan (rxPayloadPlan cfg count) :=
  readBody (by simp) cfg count

theorem clearInterruptsPlan (m : ChipMap) : BusPlan (clearInterruptsPlan m) :=
  (((writePlan _ (by simp)).append (writePlan _ (by simp))).append (writePlan _ (by simp))).append flushTxPlan

theorem configurePlan (m : ChipMap) (rx pw : Bool) : BusPlan (configurePlan m rx pw) :=
  (writePlan _ (by simp)).append (.setLastCfg rx pw)

theorem setDataRatePlan (cfg : Config) (lo hi : Bool) : BusPlan (setDataRatePlan cfg lo hi) :=
  (readPlan ..).append (.transaction none (fun _ _ => by simp) (by simp))

theorem cePulse (cfg : Config) : BusPlan (cePulse cfg) :=
  .append (.ce .high) (.append (.delay _) (.ce .low))

end BusPlan

theorem dataLen_le (n : BitVec 3) : dataLen n ≤ 5 := Nat.min_le_right ..

/-- Every well-formed instruction that is not rejected runs such a plan. -/
theorem busPlan_of_planOf {cfg : Config} {i : Instr} {plan : List Action} {fin : Finish} (hwf : i.wf = true)
    (h : planOf cfg i = .ok (plan, fin)) : BusPlan plan := by
  cases i with
  | writeRegister a n data =>
    simp only [planOf] at h
    split at h <;> cases h
    have hlen : data.length = dataLen n := by simpa [Instr.wf] using hwf
    exact .writePlan a (hlen ▸ dataLen_le n)
  | readRegister a n => simp only [planOf] at h; split at h <;> cases h; exact .readPlan ..
  | setBit v n isSet => cases h; exact .nil
  | configure rx pw => cases h; exact .configurePlan ..
  | enterTx => cases h; exact (BusPlan.configurePlan ..).append (.ce _)
  | enterRx => cases h; exact (BusPlan.configurePlan ..).append (.ce _)
  | setDataRate rate => simp only [planOf] at h; split at h <;> cases h; exact .setDataRatePlan ..
  | configurePipes mask width =>
    cases h
    exact ((BusPlan.writePlan _ (by simp)).append (.writePlan _ (by simp))).append (.setPayloadWidth _)
  | transmit n data =>
    simp only [planOf] at h
    split at h <;> cases h
    exact (BusPlan.txPayloadPlan data).append (.cePulse cfg)
  | receive n =>
    simp only [planOf] at h
    split at h <;> cases h
    exact ((BusPlan.ce _).append (.rxPayloadPlan ..)).append (.ce _)
  | flushTx => cases h; exact .flushTxPlan
  | flushRx => cases h; exact .flushRxPlan
  | respondIrq => cases h; exact (BusPlan.readPlan ..).append (.clearInterruptsPlan _)
  | clearIrq => cases h; exact .clearInterruptsPlan _
  | reservedE => cases h
  | reservedF => cases h
  | opcRRegister a count => cases h; exact .readPlan ..
  | opcWRegister a data => cases h; exact .writePlan a (of_decide_eq_true hwf)
  | opcWTxPayload data => cases h; exact .txPayloadPlan data
  | opcRRxPayload count => cases h; exact .rxPayloadPlan ..
  | opcFlushTx => cases h; exact .flushTxPlan
  | opcFlushRx => cases h; exact .flushRxPlan

/-! ## Running them, to the end or to a failing transfer -/

/-- A reference responder in its state space, with no transaction open (R54). -/
def Shaped (labelled : Bool) (r : Responder) : Prop :=
  ∃ c, r = reference labelled c ∧ c.wf = true ∧ c.txn = none

section Run

variable {labelled : Bool} {c : Chip} (hwf : c.wf = true) (htxn : c.txn = none)
include hwf htxn

/-- Wherever a transaction is ended, the chip is in its state space again. -/
theorem shaped_setCsnHigh {s : State} {sent : List Byte} (h : s.responder = reference labelled (c.during sent))
    (hfits : FrameFits sent) : Shaped labelled (setControlLine .csn .high s).responder := by
  refine ⟨c.commit s.cfg.map sent, ?_, Chip.wf_commit s.cfg.map hwf hfits, by rw [Chip.commit_txn, htxn]⟩
  rw [setControlLine_csn_responder, h, onCsn_reference, Chip.onCsn_high_during s.cfg.map htxn]

/-- A transfer is one byte more of the transaction, or fails and ends it. -/
theorem shaped_runActions_xfer {src : ByteSource} {slot : Option (Fin 6)} {as : List Action} {fin : Finish}
    {s : State} {sent : List Byte} (h : s.responder = reference labelled (c.during sent)) (hfits : FrameFits sent)
    (hnext : ∀ t : State, t.responder = reference labelled (c.during (sent ++ [src.value s])) →
      Shaped labelled (runActions as fin t).responder) :
    Shaped labelled (runActions (.xfer src slot :: as) fin s).responder := by
  cases hfails : Action.fails s (.xfer src slot) with
  | true =>
    rw [runActions_cons_of_fails as fin hfails, complete_responder]
    exact shaped_setCsnHigh hwf htxn h hfits
  | false =>
    rw [runActions_cons_of_not_fails as fin hfails]
    exact hnext _ (by simp [Action.perform, h])

/-- The data of a transaction and its end, before actions that keep the shape. -/
theorem shaped_runActions_body {cmd : Byte} {d : List Byte} {body rest : List Action} {fin : Finish} {s : State}
    (h : s.responder = reference labelled (c.during (cmd :: d))) (hfits : DataFits cmd (d.length + body.length))
    (hbody : ∀ a ∈ body, ∃ src slot, a = .xfer src slot)
    (hrest : ∀ t : State, Shaped labelled t.responder → Shaped labelled (runActions rest fin t).responder) :
    Shaped labelled (runActions (body ++ .setLine .csn .high :: rest) fin s).responder := by
  induction body generalizing s d with
  | nil => exact hrest _ (shaped_setCsnHigh hwf htxn h hfits)
  | cons a body ih =>
    obtain ⟨⟨src, slot, rfl⟩, htransfers⟩ := List.forall_mem_cons.mp hbody
    refine shaped_runActions_xfer hwf htxn h (hfits.mono (Nat.le_add_right ..)) fun t ht => ih ht ?_ htransfers
    simpa [Nat.add_assoc, Nat.add_comm 1] using hfits

end Run

/-- A plan of the block keeps the shape, if the actions after it do. -/
theorem BusPlan.shaped_runActions_append {labelled : Bool} {as : List Action} (hplan : BusPlan as) {bs : List Action}
    {fin : Finish}
    (hbs : ∀ t : State, Shaped labelled t.responder → Shaped labelled (runActions bs fin t).responder) (s : State)
    (h : Shaped labelled s.responder) : Shaped labelled (runActions (as ++ bs) fin s).responder := by
  induction hplan generalizing bs s with
  | nil => exact hbs s h
  | ce v => exact hbs _ h
  | delay ms => exact hbs _ h
  | setPayloadWidth w => exact hbs _ h
  | setLastCfg rx pw => exact hbs _ h
  | @transaction cmd slot body hfits hbody =>
    obtain ⟨c, hc, hwf, htxn⟩ := h
    have hopen : (setControlLine .csn .low s).responder = reference labelled (c.during []) := by
      rw [setControlLine_csn_responder, hc, onCsn_reference, Chip.onCsn_low s.cfg.map htxn]
    have hdata (t : State) (ht : t.responder = reference labelled (c.during [cmd])) :
        Shaped labelled (runActions (body ++ .setLine .csn .high :: bs) fin t).responder :=
      shaped_runActions_body hwf htxn ht (by simpa using hfits) hbody hbs
    rw [withTransaction, List.cons_append, List.cons_append, List.append_assoc]
    exact shaped_runActions_xfer hwf htxn hopen trivial hdata
  | append _ _ ihas ihbs =>
    rw [List.append_assoc]
    exact ihas (ihbs hbs) s h

theorem shaped_outcome {labelled : Bool} {i : Instr} (hwf : i.wf = true) {s : State}
    (h : Shaped labelled s.responder) : Shaped labelled (outcome i s).responder := by
  rcases hplan : planOf s.cfg i with e | ⟨plan, fin⟩
  · rw [outcome_error hplan, reject, raise_responder]
    exact h
  · have hrun := (busPlan_of_planOf hwf hplan).shaped_runActions_append (bs := []) (fin := fin)
      (fun t ht => (complete_responder fin t).symm ▸ ht) (accept i plan fin s) h
    rw [outcome_ok hplan]
    rwa [List.append_nil] at hrun

theorem shaped_of_step {labelled : Bool} {s t : State} (hidle : s.seq = .idle) (h : Shaped labelled s.responder)
    (hstep : step s = .next t) : Shaped labelled t.responder := by
  obtain ⟨cmd, k, rest, fin, hrun, -⟩ | ⟨-, -, rfl⟩ | ⟨r, more, i, -, -, hdecode, rfl⟩ := step_cases hstep
  · rw [hidle] at hrun
    cases hrun
  · exact h
  · exact shaped_outcome (decode_wf hdecode) h

/-- Settles O46: what is decoded is well formed, so each transaction it runs keeps the shape wherever it ends. -/
theorem stepKeepsTheChipWellFormed : Obligations.StepKeepsTheChipWellFormed := by
  intro s t c hidle hwf htxn hstep
  exact ⟨fun h => shaped_of_step (labelled := true) hidle ⟨c, h, hwf, htxn⟩ hstep,
    fun h => shaped_of_step (labelled := false) hidle ⟨c, h, hwf, htxn⟩ hstep⟩

end Sys2Proof.Machine
end

section
/-! PROOFS. The statements of the encodings (30_encoding.md): the round trip of the decoder and the encoder at both
levels, what a host word's operation does not read, and the step that runs what is decoded. -/

namespace Sys2Proof

/-! ## Decoding what was encoded (R62 to R72) -/

section PackBytes

variable (op : BitVec 4) (n : BitVec 3) (a : RegAddr) (data : List Byte)

@[simp] theorem op_packBytes : (packBytes op n a data).op = op := op_packHost ..

@[simp] theorem n_packBytes : (packBytes op n a data).n = n := n_packHost ..

@[simp] theorem a_packBytes : (packBytes op n a data).a = a := a_packHost ..

end PackBytes

/-- Settles O1: a host word by its fields (`op_packHost` and its companions, `bytes_packBytes`), a transaction by its
command byte (`busCommand_byte`) and the count of its dummies (`readCount_dummies`). -/
theorem decodeOfEncodeIsTheInstruction : Obligations.DecodeOfEncodeIsTheInstruction := by
  intro cfg i hwf
  cases i with
  | writeRegister a n data =>
    have hlen : data.length = dataLen n := by simpa [Instr.wf] using hwf
    simp [encode, decode, decodeHost, bytes_packBytes _ _ _ _ hlen]
  | transmit n data =>
    have hlen : data.length = dataLen n := by simpa [Instr.wf] using hwf
    simp [encode, decode, decodeHost, bytes_packBytes _ _ _ _ hlen]
  | opcRRegister a count => simp [encode, decode, decodeFrame, readCount_dummies, Except.map]
  | opcRRxPayload count =>
    have hcount : 1 ≤ count.val := of_decide_eq_true hwf
    simp [encode, decode, decodeFrame, readCount_dummies, hcount]
  | opcWRegister a data =>
    have hlen : data.length ≤ 5 := of_decide_eq_true hwf
    simp [encode, decode, decodeFrame, hlen]
  | opcWTxPayload data =>
    have hlen : 1 ≤ data.length ∧ data.length ≤ 5 :=
      (Bool.and_eq_true_iff.mp hwf).imp of_decide_eq_true of_decide_eq_true
    simp [encode, decode, decodeFrame, hlen]
  | opcFlushTx => simp [encode, decode, decodeFrame]
  | opcFlushRx => simp [encode, decode, decodeFrame]
  | _ => simp [encode, decode, decodeHost]

/-! ## Encoding what was decoded (R61 to R68, R75) -/

/-- Reading a command byte inverts making it, and nothing else is read as a command. -/
theorem busCommand_eq_some_iff (c : BusCommand) (b : Byte) : busCommand b = some c ↔ c.byte = b := by
  have hread : ∀ b : Byte, ∀ c ∈ busCommand b, c.byte = b := by decide
  exact ⟨hread b c, fun h => h ▸ busCommand_byte c⟩

/-- A body that is read as a count is the dummies of that count. -/
theorem dummies_of_readCount {capture : Bool} {body : List Byte} {count : Fin 6}
    (h : readCount capture body = .ok count) : dummies capture count = body := by
  have hall : body.all (· == Config.dummy) = true := by
    by_contra hne
    rw [readCount.eq_def, if_neg hne] at h
    cases h
  have hbody : body = List.replicate body.length Config.dummy :=
    List.eq_replicate_of_mem fun b hb => eq_of_beq (List.all_eq_true.mp hall b hb)
  have hlen : (if capture then count.val else count.val + 1) = body.length := by
    rw [readCount.eq_def, if_pos hall] at h
    cases capture with
    | true => simp only at h; split at h <;> cases h; rfl
    | false =>
      rcases hn : body.length with _ | n <;> simp only [hn] at h
      · cases h
      · split at h <;> cases h; rfl
  rw [dummies, hlen, ← hbody]

theorem encode_of_decodeFrame {cfg : Config} {frame : List Byte} {i : Instr}
    (h : decodeFrame cfg.rdCaptureCmd frame = .ok i) : encode cfg i = .bus frame := by
  rcases frame with _ | ⟨b, body⟩
  · cases h
  rcases hcmd : busCommand b with _ | cmd
  · simp [decodeFrame, hcmd] at h
  have hbyte := (busCommand_eq_some_iff cmd b).mp hcmd
  cases cmd with
  | rRegister a =>
    simp only [decodeFrame, hcmd] at h
    rcases hcount : readCount cfg.rdCaptureCmd body with e | count <;> rw [hcount] at h <;> cases h
    rw [encode, hbyte, dummies_of_readCount hcount]
  | rRxPayload =>
    simp only [decodeFrame, hcmd] at h
    rcases hcount : readCount cfg.rdCaptureCmd body with e | count <;> simp only [hcount] at h
    · cases h
    · split at h <;> cases h
      rw [encode, hbyte, dummies_of_readCount hcount]
  | wRegister | wTxPayload =>
    simp only [decodeFrame, hcmd] at h
    split at h <;> cases h
    rw [encode, hbyte]
  | flushTx | flushRx =>
    simp only [decodeFrame, hcmd] at h
    split at h <;> cases h
    rw [encode, hbyte, ‹body = []›]

/-- Settles O2: `decode_wf`, and each command byte and body is what the encoder makes again. -/
theorem decodedIsWellFormedAndFramesHaveOneSpelling : Obligations.DecodedIsWellFormedAndFramesHaveOneSpelling := by
  rintro cfg r i h
  refine ⟨decode_wf h, ?_⟩
  rintro frame rfl
  exact encode_of_decodeFrame h

/-- Settles O4: the table of the command bytes, and that reading inverts it. -/
theorem commandBytesAreTheTable : Obligations.CommandBytesAreTheTable :=
  ⟨busCommand_eq_some_iff, fun a => ⟨Machine.rRegister_byte a, Machine.wRegister_byte a⟩, rfl, rfl, rfl, rfl⟩

/-- Settles O5: the decoder evaluated at each of the thirteen words. -/
theorem workedExampleWordsDecode : Obligations.WorkedExampleWordsDecode :=
  ⟨rfl, rfl, rfl, rfl, rfl, rfl, rfl, rfl, rfl, rfl, rfl, rfl, rfl⟩

/-! ## What a host word's operation reads (R69, R70, R73) -/

theorem extractLsb'_congr {w w' : HostWord} (start len : Nat)
    (h : ∀ k, start ≤ k → k < start + len → w.getLsbD k = w'.getLsbD k) :
    w.extractLsb' start len = w'.extractLsb' start len := by
  apply BitVec.eq_of_getLsbD_eq
  intro i hi
  simp only [BitVec.getLsbD_extractLsb', hi, decide_true, Bool.true_and]
  exact h _ (Nat.le_add_right ..) (by omega)

/-- The list operand is data bytes 0 to `N - 1`, byte `j` in bits 8j+7:8j (R69, R71 b). -/
theorem HostWord.bytes_eq_map (w : HostWord) :
    w.bytes = (List.range (dataLen w.n)).map fun j => w.extractLsb' (8 * j) 8 := by
  have hfields : [w.d0, w.d1, w.d2, w.d3, w.d4] = (List.range 5).map fun j => w.extractLsb' (8 * j) 8 := rfl
  rw [HostWord.bytes, hfields, ← List.map_take, List.take_range, dataLen]

section Agree

variable {w w' : HostWord}

theorem HostWord.op_congr (h : ∀ k, 60 ≤ k → k ≤ 63 → w.getLsbD k = w'.getLsbD k) : w.op = w'.op :=
  extractLsb'_congr 60 4 fun k hk hk' => h k hk (Nat.le_of_lt_succ hk')

theorem HostWord.n_congr (h : ∀ k, 56 ≤ k → k ≤ 58 → w.getLsbD k = w'.getLsbD k) : w.n = w'.n :=
  extractLsb'_congr 56 3 fun k hk hk' => h k hk (Nat.le_of_lt_succ hk')

theorem HostWord.a_congr (h : ∀ k, 48 ≤ k → k ≤ 52 → w.getLsbD k = w'.getLsbD k) : w.a = w'.a :=
  extractLsb'_congr 48 5 fun k hk hk' => h k hk (Nat.le_of_lt_succ hk')

theorem HostWord.d0_congr (h : ∀ k, k < 8 → w.getLsbD k = w'.getLsbD k) : w.d0 = w'.d0 :=
  extractLsb'_congr 0 8 fun k _ hk => h k hk

theorem HostWord.d1_congr (h : ∀ k, k < 16 → w.getLsbD k = w'.getLsbD k) : w.d1 = w'.d1 :=
  extractLsb'_congr 8 8 fun k _ hk => h k hk

theorem HostWord.bytes_congr (hn : w.n = w'.n) (h : ∀ k, k < 8 * dataLen w.n → w.getLsbD k = w'.getLsbD k) :
    w.bytes = w'.bytes := by
  rw [bytes_eq_map, bytes_eq_map, ← hn]
  refine List.map_congr_left fun j hj => extractLsb'_congr _ _ fun k _ hk => h k ?_
  have := List.mem_range.mp hj
  omega

open HostWord in
/-- Host words that agree on every bit the operation of one of them reads are the same instruction: `readsBit` lists,
for each `OP`, the bits of exactly the fields `decodeHost` takes. -/
theorem decodeHost_congr (h : ∀ k, Machine.readsBit w k = true → w.getLsbD k = w'.getLsbD k) :
    decodeHost w = decodeHost w' := by
  have hop : w.op = w'.op := op_congr fun k hk hk' => h k (by simp [Machine.readsBit, hk, hk'])
  have hfields : w.extractLsb' 60 4 = w.op ∧ min (w.extractLsb' 56 3).toNat 5 = dataLen w.n := ⟨rfl, rfl⟩
  fun_cases decodeHost w
  all_goals
    rename_i hw
    simp only [Machine.readsBit, hfields, hw, Bool.or_eq_true, decide_eq_true_eq, or_imp, and_imp, forall_and,
      forall_eq] at h
  case case1 =>
    obtain ⟨-, ⟨ha, hn⟩, hbytes⟩ := h
    simp only [decodeHost, ← hop, hw, a_congr ha, n_congr hn, bytes_congr (n_congr hn) hbytes]
  case case2 =>
    obtain ⟨-, ha, hn⟩ := h
    simp only [decodeHost, ← hop, hw, a_congr ha, n_congr hn]
  case case3 =>
    obtain ⟨-, ⟨hd0, hn⟩, hf1⟩ := h
    simp only [decodeHost, ← hop, hw, d0_congr hd0, n_congr hn, HostWord.f1, hf1]
  case case4 =>
    obtain ⟨-, hf1, hf0⟩ := h
    simp only [decodeHost, ← hop, hw, HostWord.f1, hf1, HostWord.f0, hf0]
  case case7 =>
    obtain ⟨-, hd0⟩ := h
    simp only [decodeHost, ← hop, hw, d0_congr hd0]
  case case8 =>
    obtain ⟨-, hd⟩ := h
    simp only [decodeHost, ← hop, hw, d0_congr fun k hk => hd k (by omega), d1_congr hd]
  case case9 =>
    obtain ⟨-, hn, hbytes⟩ := h
    simp only [decodeHost, ← hop, hw, n_congr hn, bytes_congr (n_congr hn) hbytes]
  case case10 =>
    obtain ⟨-, hn⟩ := h
    simp only [decodeHost, ← hop, hw, n_congr hn]
  all_goals simp only [decodeHost, ← hop, hw]

end Agree

/-- Settles O3: the two words decode to one instruction (`decodeHost_congr`), and a step sees a word only decoded. -/
theorem unreadFieldsAreIgnored : Obligations.UnreadFieldsAreIgnored := by
  intro w w' h
  have hdecode : decodeHost w = decodeHost w' := decodeHost_congr h
  refine ⟨hdecode, fun s more hseq => ?_⟩
  have hstep (v : HostWord) (hv : decodeHost v = decodeHost w) :
      Machine.step { s with pending := .host v :: more } =
        .next (Machine.outcome (decodeHost w) { s with pending := more }) :=
    Machine.step_of_decode_ok hseq rfl (congrArg Except.ok hv)
  rw [hstep w rfl, hstep w' hdecode.symm]

end Sys2Proof
end

section
/-! PROOFS. The statements of the encodings (30_encoding.md), continued: the step runs what is decoded, and what a
transaction presented by itself does on the bus (R61 to R67; log 15). -/

namespace Sys2Proof

/-! ## The words of the opcode table (log 16) -/

/-- How many dummies a build sends changes the shortest transaction and its decoder alike. -/
theorem decodeFrame_shortestFrame (capture capture' : Bool) (b : Byte) :
    decodeFrame capture (shortestFrame capture b) = decodeFrame capture' (shortestFrame capture' b) := by
  rcases hcmd : busCommand b with _ | cmd
  · simp only [shortestFrame, decodeFrame, hcmd]
  cases cmd with
  | rRegister a =>
    have hcount (c : Bool) : readCount c (dummies c 0) = .ok 0 := readCount_dummies c 0
    simp only [shortestFrame, decodeFrame, hcmd, hcount]
  | rRxPayload =>
    have hcount (c : Bool) : readCount c (dummies c 1) = .ok 1 := readCount_dummies c 1
    simp only [shortestFrame, decodeFrame, hcmd, hcount]
  | _ => simp only [shortestFrame, decodeFrame, hcmd]

/-- A table word is the same instruction for every build. -/
theorem decode_tableRequest (cfg : Config) (nbits w : Nat) :
    decode cfg (tableRequest cfg.rdCaptureCmd nbits w) =
      decode Config.standard (tableRequest Config.standard.rdCaptureCmd nbits w) := by
  by_cases hbits : nbits ≤ 8
  · simp only [tableRequest, if_pos hbits, decode]
    exact decodeFrame_shortestFrame ..
  · simp only [tableRequest, if_neg hbits, decode]

theorem decode_eq_ok_of_decodeTableWord (cfg : Config) {nbits w : Nat} {i : Instr}
    (h : decodeTableWord nbits w = some i) : decode cfg (tableRequest cfg.rdCaptureCmd nbits w) = .ok i := by
  rw [decode_tableRequest]
  rw [decodeTableWord] at h
  rcases hdecode : decode Config.standard (tableRequest Config.standard.rdCaptureCmd nbits w) with e | j <;>
    rw [hdecode] at h <;> cases h
  rfl

end Sys2Proof

namespace Sys2Proof.Machine

/-- Settles O6: `step_of_decode_ok`, and an instruction always answers (`exec_eq`). -/
theorem stepRunsTheDecodedInstruction : Obligations.StepRunsTheDecodedInstruction := by
  intro s r more i hseq hpending hdecode
  rw [step_of_decode_ok hseq hpending hdecode, exec_eq]

/-- Settles O8: the request of a table word decodes the same for every build, so O6 applies. -/
theorem fetchedTableWordIsRun : Obligations.FetchedTableWordIsRun := by
  intro s nbits w i h
  exact stepRunsTheDecodedInstruction (s.withFetchWord nbits w) _ s.pending i rfl rfl
    (decode_eq_ok_of_decodeTableWord s.cfg h)

/-! ## A transaction presented by itself (R61, R90) -/

/-- An instruction none of whose transfers fails performs its actions from an empty trace, and delivers its response. -/
theorem exec_of_channelHolds {i : Instr} {s : State} {plan : List Action} {fin : Finish}
    (hplan : planOf s.cfg i = .ok (plan, fin)) (h : ChannelHolds s (xferCount plan)) :
    exec i s = .next (complete fin (performAll plan (accept i plan fin s))) := by
  rw [exec_eq, outcome_ok hplan, runCommand_eq_complete _ _ _ _ h]

/-- A transaction presented by itself that discards its replies changes CSN, and the trace is its bytes. -/
theorem exec_discarding {i : Instr} {s : State} {mosi : List Byte}
    (hplan : planOf s.cfg i = .ok (withTransaction (xfers (discarded mosi)), .bus)) (h : ChannelHolds s mosi.length) :
    ∃ (t : State) (miso : List Byte), exec i s = .next t ∧ miso.length = mosi.length ∧
      t = { s with
        csn := .high, seq := .idle, trace := transaction mosi miso,
        responder := t.responder, chanFaults := t.chanFaults, draws := t.draws } := by
  obtain ⟨miso, r, c, d, hmiso, hran⟩ :=
    discarding_ran mosi (accept i (withTransaction (xfers (discarded mosi))) .bus s)
  refine ⟨_, miso, exec_of_channelHolds hplan (by simpa [discarded] using h), hmiso, ?_⟩
  rw [hran]
  rfl

/-- Settles O36: each of the four runs one transaction that discards its replies. -/
theorem writingTransactionsSendTheirBytes : Obligations.WritingTransactionsSendTheirBytes := by
  rintro s i mosi - (⟨rfl, rfl⟩ | ⟨rfl, rfl⟩ | ⟨data, rfl, rfl⟩ | ⟨a, data, rfl, rfl⟩) hholds
  · exact exec_discarding rfl hholds
  · exact exec_discarding rfl hholds
  · exact exec_discarding (by rw [planOf, txPayloadPlan_eq]; rfl) hholds
  · exact exec_discarding (by rw [planOf, writePlan_eq, wRegister_byte]) hholds

/-- A transaction presented by itself that reads fills the slots of the read buffer from its replies. -/
theorem exec_reading {i : Instr} {s : State} {cmd : Byte} {count : Nat}
    (hplan : planOf s.cfg i = .ok (withTransaction (xfers (readList s.cfg.rdCaptureCmd cmd count)), .bus))
    (hcount : count ≤ 5) (h : ChannelHolds s (count + 2)) :
    ∃ (t : State) (miso : List Byte), exec i s = .next t ∧
      miso.length = (if s.cfg.rdCaptureCmd then count + 1 else count + 2) ∧ Captured s.cfg count miso s.rb t.rb ∧
      t = { s with
        rb := t.rb, csn := .high, seq := .idle, trace := transaction (cmd :: dummies s.cfg.rdCaptureCmd count) miso,
        responder := t.responder, chanFaults := t.chanFaults, draws := t.draws } := by
  obtain ⟨miso, rb, r, c, d, hmiso, hcaptured, hran⟩ := reading_ran cmd count hcount
    (accept i (withTransaction (xfers (readList s.cfg.rdCaptureCmd cmd count))) .bus s)
  have hlen : (readList s.cfg.rdCaptureCmd cmd count).length ≤ count + 2 := by
    rw [readList_length _ _ _ hcount]
    split <;> omega
  have hexec := exec_of_channelHolds hplan (by rw [xferCount_transaction]; exact h.mono hlen)
  rw [accept_cfg] at hran
  rw [hran] at hexec
  exact ⟨_, miso, hexec, hmiso, hcaptured, rfl⟩

/-- Settles O37: each of the two runs one transaction that reads. -/
theorem readingTransactionsFillTheBuffer : Obligations.ReadingTransactionsFillTheBuffer := by
  rintro s i cmd count - (⟨a, rfl, rfl⟩ | ⟨rfl, rfl⟩) hholds
  · exact exec_reading (by rw [planOf, readPlan_eq, rRegister_byte]) (Nat.le_of_lt_succ count.isLt) hholds
  · exact exec_reading (by rw [planOf, rxPayloadPlan_eq]; rfl) (Nat.le_of_lt_succ count.isLt) hholds

/-! ## A host command that is one transaction (R62, R63, R66, R67) -/

/-- How a command is to end does not matter before its end: the actions lead to one state, whether or not one of them
fails, and only the response differs. -/
theorem runActions_eq_complete_of_any_finish (as : List Action) (s : State) :
    ∃ t, ∀ fin, ∃ fin', runActions as fin s = complete fin' t := by
  induction as generalizing s with
  | nil => exact ⟨s, fun fin => ⟨fin, rfl⟩⟩
  | cons a as ih =>
    cases hfails : a.fails s with
    | true => exact ⟨_, fun fin => ⟨.channelFault, runActions_cons_of_fails as fin hfails⟩⟩
    | false =>
      obtain ⟨t, ht⟩ := ih (a.perform s)
      exact ⟨t, fun fin => by rw [runActions_cons_of_not_fails as fin hfails]; exact ht fin⟩

/-- Commands that run the same actions do the same on the bus, from every state. -/
theorem exec_same_bus {i j : Instr} {s t u : State} {plan : List Action} {fin fin' : Finish}
    (hi : planOf s.cfg i = .ok (plan, fin)) (hj : planOf s.cfg j = .ok (plan, fin')) (ht : exec i s = .next t)
    (hu : exec j s = .next u) :
    t.trace = u.trace ∧ t.rb = u.rb ∧ t.responder = u.responder ∧ t.csn = u.csn ∧ t.chanFaults = u.chanFaults := by
  have hrun (cmd : Instr) (f : Finish) : runCommand cmd plan f s = runActions plan f { s with trace := [] } :=
    runActions_with_seq plan f { s with trace := [] } _
  rw [exec_eq, outcome_ok hi, hrun] at ht
  rw [exec_eq, outcome_ok hj, hrun] at hu
  obtain ⟨v, hv⟩ := runActions_eq_complete_of_any_finish plan { s with trace := [] }
  obtain ⟨f, hf⟩ := hv fin
  obtain ⟨f', hf'⟩ := hv fin'
  cases ht
  cases hu
  simp only [hf, hf', complete_trace, complete_rb, complete_responder, complete_csn, complete_chanFaults, and_self]

theorem planOf_writeRegister {cfg : Config} {n : BitVec 3} (a : RegAddr) (data : List Byte)
    (h : n.toNat ≤ cfg.maxWrLen.val) : planOf cfg (.writeRegister a n data) = .ok (writePlan a data, .ok) :=
  if_pos ((writeLenOk_iff cfg n).mpr h)

theorem planOf_readRegister (cfg : Config) {n : BitVec 3} (a : RegAddr) (h : n.toNat ≤ 5) :
    planOf cfg (.readRegister a n) = .ok (readPlan cfg a n.toNat, .ok) :=
  if_pos ((readCountOk_iff n).mpr h)

/-- Settles O38: each pair runs the same actions. -/
theorem hostCommandsAreTheirTransactions : Obligations.HostCommandsAreTheirTransactions := by
  rintro s t u i j hmax (⟨rfl, rfl⟩ | ⟨rfl, rfl⟩ | ⟨a, n, data, -, hn, rfl, rfl⟩ | ⟨a, n, count, hn, rfl, rfl⟩) ht hu
  · exact exec_same_bus rfl rfl ht hu
  · exact exec_same_bus rfl rfl ht hu
  · exact exec_same_bus (planOf_writeRegister a data (by rw [hmax]; exact hn)) rfl ht hu
  · have hcount : n.toNat ≤ 5 := by omega
    exact exec_same_bus (planOf_readRegister s.cfg a hcount) (by rw [planOf, hn]) ht hu

end Sys2Proof.Machine
end

section
/-! PROOFS. The statements of the encodings (30_encoding.md), continued: a composite operation is the host commands of
its expansion, one after the other (R77). -/

namespace Sys2Proof.Machine

/-! ## A command of an expansion, in step with its part of the composite -/

/-- A state between two commands and one inside a composite that cannot be told apart on the bus: no transfer can fail,
and `n` replies or more are left of one script. -/
structure InStep (cfg : Config) (n : Nat) (u t : State) : Prop where
  cannotFault : cfg.channelCanFault = false
  cfg_left : u.cfg = cfg
  cfg_right : t.cfg = cfg
  rb : t.rb = u.rb
  ce : t.ce = u.ce
  responder : t.responder = u.responder
  scripted : ∃ script, u.responder = .oracle script ∧ n ≤ script.length

/-- The same was done on both sides: they are in step, and the same events were added. -/
def Advances (cfg : Config) (n : Nat) (u t u' t' : State) : Prop :=
  InStep cfg n u' t' ∧ ∃ es, u'.trace = u.trace ++ es ∧ t'.trace = t.trace ++ es

theorem Advances.trans {cfg : Config} {m n : Nat} {u t u' t' u'' t'' : State} (h : Advances cfg m u t u' t')
    (h' : Advances cfg n u' t' u'' t'') : Advances cfg n u t u'' t'' := by
  obtain ⟨-, es, hu, ht⟩ := h
  obtain ⟨hstep, fs, hu', ht'⟩ := h'
  exact ⟨hstep, es ++ fs, by rw [hu', hu, List.append_assoc], by rw [ht', ht, List.append_assoc]⟩

namespace InStep

variable {cfg : Config} {m n : Nat} {u t : State}

/-- An action that is no transfer asks for no reply. -/
theorem perform_of_not_xfer (h : InStep cfg n u t) {a : Action} (ha : xferCount [a] = 0) :
    Advances cfg n u t (a.perform u) (a.perform t) := by
  obtain ⟨script, hscript, hlen⟩ := h.scripted
  have hresp : t.responder = .oracle script := h.responder.trans hscript
  have hleft := perform_oracle_of_not_xfer ha hscript
  have hright := perform_oracle_of_not_xfer ha hresp
  have hstate (hrb : (a.perform t).rb = (a.perform u).rb) (hce : (a.perform t).ce = (a.perform u).ce) :
      InStep cfg n (a.perform u) (a.perform t) :=
    ⟨h.cannotFault, (perform_cfg u a).trans h.cfg_left, (perform_cfg t a).trans h.cfg_right, hrb, hce,
      hright.trans hleft.symm, script, hleft, hlen⟩
  cases a with
  | xfer src slot => cases ha
  | setLine l v =>
    refine ⟨hstate ?_ ?_, [.line l v], setControlLine_trace l v u, setControlLine_trace l v t⟩
    · simp [Action.perform, h.rb]
    · cases l <;> simp [Action.perform, h.ce]
  | delay ms => exact ⟨hstate h.rb h.ce, [.delay ms], delayMs_trace ms u, delayMs_trace ms t⟩
  | setPayloadWidth w => exact ⟨hstate h.rb h.ce, [], by simp [Action.perform], by simp [Action.perform]⟩
  | setLastCfg rx pw => exact ⟨hstate h.rb h.ce, [], by simp [Action.perform], by simp [Action.perform]⟩

/-- A transfer sends the same byte, and takes the next reply of the script. -/
theorem perform_xfer (h : InStep cfg (n + 1) u t) (src : ByteSource) (slot : Option (Fin 6)) :
    Advances cfg n u t (Action.perform u (.xfer src slot)) (Action.perform t (.xfer src slot)) := by
  obtain ⟨script, hscript, hlen⟩ := h.scripted
  obtain ⟨v, script, rfl⟩ := List.exists_cons_of_length_pos (Nat.zero_lt_of_lt hlen)
  have hreply : nextReply t = nextReply u := by
    rw [nextReply_oracle_cons hscript, nextReply_oracle_cons (h.responder.trans hscript)]
  have hvalue : src.value t = src.value u := by
    cases src with
    | const b => rfl
    | rate lo hi => simp only [ByteSource.value, h.cfg_left, h.cfg_right, h.rb]
  refine ⟨⟨h.cannotFault, ?_, ?_, ?_, ?_, ?_, script, ?_, Nat.le_of_succ_le_succ hlen⟩,
    [.xfer (src.value u) (nextReply u)], exchange_trace _ slot u, ?_⟩
  · exact (perform_cfg u _).trans h.cfg_left
  · exact (perform_cfg t _).trans h.cfg_right
  · cases slot <;> simp [Action.perform, h.rb, hreply]
  · simp [Action.perform, h.ce]
  · simp [Action.perform, h.responder, hvalue]
  · simp [Action.perform, hscript, Responder.receive]
  · simp [Action.perform, hreply, hvalue]

/-- The same actions keep in step and add the same events. -/
theorem performAll (as : List Action) (h : InStep cfg (xferCount as + n) u t) :
    Advances cfg n u t (performAll as u) (performAll as t) := by
  induction as generalizing u t with
  | nil => exact ⟨by simpa [xferCount] using h, [], by simp, by simp⟩
  | cons a as ih =>
    have hfirst : Advances cfg (xferCount as + n) u t (a.perform u) (a.perform t) := by
      rw [← List.singleton_append, xferCount_append] at h
      obtain ⟨src, slot, rfl⟩ | ha := eq_xfer_or_xferCount_eq_zero a
      · exact perform_xfer (by rwa [xferCount, xferCount, Nat.zero_add, Nat.add_assoc, Nat.add_comm 1] at h) src slot
      · exact perform_of_not_xfer (by rwa [ha, Nat.zero_add] at h) ha
    exact hfirst.trans (ih hfirst.left)

/-- A command of the expansion does what its actions do inside the composite. -/
theorem exec (h : InStep cfg m u t) {i : Instr} {as : List Action} {fin : Finish} {u' : State}
    (hplan : planOf cfg i = .ok (as, fin)) (hexec : exec i u = .next u') (hm : xferCount as + n ≤ m) :
    InStep cfg n u' (Machine.performAll as t) ∧ (Machine.performAll as t).trace = t.trace ++ u'.trace := by
  obtain ⟨script, hscript, hlen⟩ := h.scripted
  have haccept : InStep cfg (xferCount as + n) (accept i as fin u) t :=
    ⟨h.cannotFault, h.cfg_left, h.cfg_right, h.rb, h.ce, h.responder, script, hscript, hm.trans hlen⟩
  obtain ⟨hend, es, hu, ht⟩ := performAll as haccept
  rw [exec_of_channelCanFault_eq_false (h.cfg_left ▸ h.cannotFault) (h.cfg_left ▸ hplan) hexec]
  refine ⟨⟨hend.cannotFault, ?_, hend.cfg_right, ?_, ?_, ?_, ?_⟩, ?_⟩
  · rw [complete_cfg]; exact hend.cfg_left
  · rw [complete_rb]; exact hend.rb
  · rw [complete_ce]; exact hend.ce
  · rw [complete_responder]; exact hend.responder
  · rw [complete_responder]; exact hend.scripted
  · rw [complete_trace, ht, hu, accept_trace, List.nil_append]

end InStep

/-! ## The expansions (R77) -/

theorem performAll_with_seq (as : List Action) (s : State) (q : Seq) :
    performAll as { s with seq := q } = { performAll as s with seq := q } := by
  induction as generalizing s with
  | nil => rfl
  | cons a as ih => rw [performAll_cons, perform_with_seq, ih, performAll_cons]

/-- Where nothing can fail, what an instruction ends in does not depend on how it was latched. -/
theorem exec_eq_complete_performAll {i : Instr} {s t : State} {plan : List Action} {fin : Finish}
    (hc : s.cfg.channelCanFault = false) (hplan : planOf s.cfg i = .ok (plan, fin)) (h : exec i s = .next t) :
    t = complete fin (performAll plan { s with trace := [] }) := by
  have haccept : performAll plan (accept i plan fin s) =
      { performAll plan { s with trace := [] } with seq := .running i 0 plan fin } :=
      performAll_with_seq plan { s with trace := [] } _
  rw [exec_of_channelCanFault_eq_false hc hplan h, haccept, complete_with_seq]

theorem planOf_writeRegister_one {cfg : Config} (h : 1 ≤ cfg.maxWrLen.val) (a : RegAddr) (b : Byte) :
    planOf cfg (.writeRegister a 1 [b]) = .ok (writePlan a [b], .ok) :=
  planOf_writeRegister a [b] h

@[simp] theorem xferCount_writePlan (a : RegAddr) (bytes : List Byte) :
    xferCount (writePlan a bytes) = bytes.length + 1 := by
  simp [writePlan_eq, discarded]

@[simp] theorem xferCount_flushTxPlan : xferCount flushTxPlan = 1 := by
  simp [flushTxPlan_eq, discarded]

theorem xferCount_readPlan_le (cfg : Config) (a : RegAddr) {count : Nat} (h : count ≤ 5) :
    xferCount (readPlan cfg a count) ≤ count + 2 := by
  rw [readPlan_eq, xferCount_transaction, readList_length _ _ _ h]
  split <;> omega

theorem xferCount_clearInterruptsPlan (m : ChipMap) : xferCount (clearInterruptsPlan m) = 7 := by
  simp [clearInterruptsPlan, xferCount_append]

/-- clearInterrupts does not touch the read buffer (R160). -/
theorem performAll_clearInterruptsPlan_rb (m : ChipMap) (s : State) :
    (performAll (clearInterruptsPlan m) s).rb = s.rb := by
  have hdiscard (bytes : List Byte) (t : State) :
      (performAll (withTransaction (xfers (discarded bytes))) t).rb = t.rb := by
    rw [performAll_transaction, storeReplies_discarded]
  simp only [clearInterruptsPlan, writePlan_eq, flushTxPlan_eq, performAll_append, hdiscard]

/-- What the composite ends in and what the last command of its expansion ends in, but for the trace. -/
theorem InStep.same_end {cfg : Config} {n : Nat} {u t : State} (h : InStep cfg n u t) (fin : Finish) :
    (complete fin t).rb = u.rb ∧ (complete fin t).ce = u.ce ∧ (complete fin t).responder = u.responder := by
  simp only [complete_rb, complete_ce, complete_responder]
  exact ⟨h.rb, h.ce, h.responder⟩

/-- Settles O47: the actions of a composite are those of its expansion one after the other, and each command of the
expansion is in step with its part (`InStep.exec`). -/
theorem compositesAreTheirExpansions : Obligations.CompositesAreTheirExpansions := by
  intro s t u₁ u₂ u₃ u₄ script hc hmax hresp hlen
  have hstart : InStep s.cfg 10 s { s with trace := [] } := ⟨hc, rfl, rfl, rfl, rfl, rfl, script, hresp, hlen⟩
  have hwrite := planOf_writeRegister_one hmax
  refine ⟨fun rx pw ht h₁ => ?_, fun mask width ht h₁ h₂ => ?_, fun ht h₁ h₂ h₃ h₄ => ?_, fun ht h₁ h₂ => ?_⟩
  · rw [exec_eq_complete_performAll hc rfl ht, exec_eq_complete_performAll hc (hwrite ..) h₁, configurePlan,
      performAll_append]
    rfl
  · obtain ⟨hstep₁, htrace₁⟩ := hstart.exec (n := 8) (hwrite ..) h₁ (by simp)
    obtain ⟨hstep₂, htrace₂⟩ := hstep₁.exec (n := 6) (hwrite ..) h₂ (by simp)
    rw [exec_eq_complete_performAll hc rfl ht, performAll_append, performAll_append]
    refine ⟨?_, hstep₂.same_end .ok⟩
    simp [Action.perform, htrace₁, htrace₂]
  · obtain ⟨hstep₁, htrace₁⟩ := hstart.exec (n := 8) (hwrite ..) h₁ (by simp)
    obtain ⟨hstep₂, htrace₂⟩ := hstep₁.exec (n := 6) (hwrite ..) h₂ (by simp)
    obtain ⟨hstep₃, htrace₃⟩ := hstep₂.exec (n := 4) (hwrite ..) h₃ (by simp)
    obtain ⟨hstep₄, htrace₄⟩ := hstep₃.exec (n := 3) rfl h₄ (by simp)
    rw [exec_eq_complete_performAll hc rfl ht, clearInterruptsPlan, performAll_append, performAll_append,
      performAll_append]
    refine ⟨?_, hstep₄.same_end .ok⟩
    simp [htrace₁, htrace₂, htrace₃, htrace₄]
  · have hplan : planOf s.cfg (.readRegister s.cfg.map.addrStatus 1) =
        .ok (readPlan s.cfg s.cfg.map.addrStatus 1, .ok) := planOf_readRegister s.cfg _ (by decide)
    have hread := xferCount_readPlan_le s.cfg s.cfg.map.addrStatus (count := 1) (by decide)
    obtain ⟨hstep₁, htrace₁⟩ := hstart.exec (n := 7) hplan h₁ (Nat.add_le_add_right hread 7)
    obtain ⟨hstep₂, htrace₂⟩ := hstep₁.exec (n := 0) rfl h₂ (by rw [xferCount_clearInterruptsPlan])
    rw [exec_eq_complete_performAll hc rfl ht, performAll_append]
    obtain ⟨hrb, hce, hresponder⟩ := hstep₂.same_end (.okSlot 0)
    refine ⟨?_, hrb, hce, hresponder, ?_⟩
    · rw [complete_trace, htrace₂, htrace₁, List.nil_append]
    · rw [complete_okSlot_rspResult, performAll_clearInterruptsPlan_rb]
      exact congrArg (·[0]) hstep₁.rb

end Sys2Proof.Machine
end

section
/-! PROOFS. The statement of the bus transaction (40_bus_transaction.md): every step keeps the bracketing of R91, CSN
High when Idle (10_state.md R13), and the bound on a trace (R14). -/

namespace Sys2Proof.Machine

/-! ## The plans of the block obey R91 -/

/-- Transfers stand anywhere inside a transaction. -/
theorem actionsOk_transfers {body : List Action} (hbody : ∀ a ∈ body, ∃ src slot, a = .xfer src slot)
    (rest : List Action) : actionsOk true (body ++ rest) = actionsOk true rest := by
  induction body with
  | nil => rfl
  | cons a body ih =>
    obtain ⟨⟨src, slot, rfl⟩, htransfers⟩ := List.forall_mem_cons.mp hbody
    exact ih htransfers

/-- A plan of the block opens and closes its own transactions, so it may stand before any actions that start outside
one. -/
theorem BusPlan.actionsOk_append {as : List Action} (hplan : BusPlan as) (bs : List Action) :
    actionsOk false (as ++ bs) = actionsOk false bs := by
  induction hplan generalizing bs with
  | nil => rfl
  | ce v => rfl
  | delay ms => rfl
  | setPayloadWidth w => rfl
  | setLastCfg rx pw => rfl
  | @transaction cmd slot body hfits hbody =>
    rw [withTransaction, List.cons_append, List.cons_append, List.append_assoc]
    exact actionsOk_transfers hbody _
  | append _ _ ihas ihbs => rw [List.append_assoc, ihas, ihbs]

theorem BusPlan.actionsOk {as : List Action} (hplan : BusPlan as) : actionsOk false as = true := by
  simpa [Machine.actionsOk] using hplan.actionsOk_append []

/-! ## The plans of the block are short (10_state.md R14) -/

theorem eventCount_le_length (as : List Action) : eventCount as ≤ as.length := by
  induction as with
  | nil => exact Nat.le_refl 0
  | cons a as ih =>
    rw [eventCount, List.length_cons]
    split <;> omega

@[simp] theorem length_withTransaction (body : List Action) : (withTransaction body).length = body.length + 2 := by
  simp [withTransaction]

@[simp] theorem length_writePlan (a : RegAddr) (bytes : List Byte) : (writePlan a bytes).length = bytes.length + 3 := by
  simp [writePlan]

@[simp] theorem length_txPayloadPlan (data : List Byte) : (txPayloadPlan data).length = data.length + 3 := by
  simp [txPayloadPlan]

@[simp] theorem length_flushTxPlan : flushTxPlan.length = 3 := rfl

@[simp] theorem length_flushRxPlan : flushRxPlan.length = 3 := rfl

@[simp] theorem length_cePulse (cfg : Config) : (cePulse cfg).length = 3 := rfl

@[simp] theorem length_clearInterruptsPlan (m : ChipMap) : (clearInterruptsPlan m).length = 15 := by
  simp [clearInterruptsPlan]

@[simp] theorem length_configurePlan (m : ChipMap) (rx pw : Bool) : (configurePlan m rx pw).length = 5 := by
  simp [configurePlan]

/-- A read sends its command byte and at most one dummy more than it reads bytes (41_register_access.md R101). -/
theorem length_readBody_le (cfg : Config) (cmd : Byte) (count : Nat) : (readBody cfg cmd count).length ≤ count + 2 := by
  rw [readBody]
  split <;> simp

theorem length_readPlan_le (cfg : Config) (a : RegAddr) (count : Nat) : (readPlan cfg a count).length ≤ count + 4 := by
  rw [readPlan, length_withTransaction]
  exact Nat.add_le_add_right (length_readBody_le ..) 2

theorem length_rxPayloadPlan_le (cfg : Config) (count : Nat) : (rxPayloadPlan cfg count).length ≤ count + 4 := by
  rw [rxPayloadPlan, length_withTransaction]
  exact Nat.add_le_add_right (length_readBody_le ..) 2

theorem length_setDataRatePlan_le (cfg : Config) (lo hi : Bool) : (setDataRatePlan cfg lo hi).length ≤ 9 := by
  have hread := length_readPlan_le cfg cfg.map.addrRfSetup 1
  simp only [setDataRatePlan, List.length_append, length_withTransaction, List.length_cons, List.length_nil]
  omega

/-- The longest plan is that of respondToInterrupt, a read of one byte and clearInterrupts (R14). -/
theorem length_le_maxEvents_of_planOf {cfg : Config} {i : Instr} {plan : List Action} {fin : Finish}
    (hwf : i.wf = true) (h : planOf cfg i = .ok (plan, fin)) : plan.length ≤ maxEvents := by
  unfold maxEvents
  cases i with
  | writeRegister a n data =>
    simp only [planOf] at h
    split at h <;> cases h
    have hdata : data.length = dataLen n := by simpa [Instr.wf] using hwf
    have := dataLen_le n
    rw [length_writePlan]
    omega
  | readRegister a n =>
    simp only [planOf] at h
    split at h <;> cases h
    have := length_readPlan_le cfg a n.toNat
    omega
  | setBit v n isSet => cases h; decide
  | configure rx pw => cases h; simp
  | enterTx => cases h; simp
  | enterRx => cases h; simp
  | setDataRate rate =>
    simp only [planOf] at h
    split at h <;> cases h
    exact (length_setDataRatePlan_le ..).trans (by decide)
  | configurePipes mask width => cases h; simp
  | transmit n data =>
    simp only [planOf] at h
    split at h <;> cases h
    have hdata : data.length = dataLen n := by simpa [Instr.wf] using hwf
    have := dataLen_le n
    rw [List.length_append, length_txPayloadPlan, length_cePulse]
    omega
  | receive n =>
    simp only [planOf] at h
    split at h <;> cases h
    have := length_rxPayloadPlan_le cfg n.toNat
    simp only [List.length_append, List.length_cons, List.length_nil]
    omega
  | flushTx => cases h; decide
  | flushRx => cases h; decide
  | respondIrq =>
    cases h
    have := length_readPlan_le cfg cfg.map.addrStatus 1
    rw [List.length_append, length_clearInterruptsPlan]
    omega
  | clearIrq => cases h; simp
  | reservedE => cases h
  | reservedF => cases h
  | opcRRegister a count =>
    cases h
    have := length_readPlan_le cfg a count
    omega
  | opcWRegister a data =>
    cases h
    have : data.length ≤ 5 := of_decide_eq_true hwf
    rw [length_writePlan]
    omega
  | opcWTxPayload data =>
    cases h
    obtain ⟨-, hdata⟩ : Config.payloadMin ≤ data.length ∧ data.length ≤ Config.payloadMax := by
      simpa [Instr.wf] using hwf
    rw [length_txPayloadPlan]
    exact (Nat.add_le_add_right hdata 3).trans (by decide)
  | opcRRxPayload count =>
    cases h
    have := length_rxPayloadPlan_le cfg count
    omega
  | opcFlushTx => cases h; decide
  | opcFlushRx => cases h; decide

/-! ## The invariant from the acceptance of a command to its end -/

theorem blockInv_ticks (n : Nat) {s : State} (h : BlockInv s) : BlockInv (ticks n s) := by
  induction n generalizing s with
  | zero => exact h
  | succ n ih => exact ih (everyTickKeepsTheInvariant s h)

/-- Running a command to its end is making moves (O13), and every move keeps the invariant (O12). -/
theorem blockInv_runActions {s : State} {cmd : Instr} {k : Nat} {rest : List Action} {fin : Finish}
    (hseq : s.seq = .running cmd k rest fin) (h : BlockInv s) : BlockInv (runActions rest fin s) := by
  obtain ⟨hrun, -⟩ := ticksRefineTheRun s cmd k rest fin hseq
  exact hrun ▸ blockInv_ticks _ h

/-- A command that is accepted has emitted nothing, and has a plan of the block before it. -/
theorem blockInv_accept {s : State} {cmd : Instr} {plan : List Action} {fin : Finish} (hcsn : s.csn = .high)
    (hplan : BusPlan plan) (hlen : plan.length ≤ maxEvents) : BlockInv (accept cmd plan fin s) := by
  have hcount : 0 + eventCount plan ≤ maxEvents := by
    rw [Nat.zero_add]
    exact (eventCount_le_length plan).trans hlen
  exact (blockInv_of_running rfl).mpr ⟨rfl, hcount, false, rfl, hplan.actionsOk, hcsn⟩

/-- A rejected command leaves an empty trace and drives no line (60_exceptions.md R181, R182). -/
theorem blockInv_reject {s : State} (e : Exc) (hcsn : s.csn = .high) : BlockInv (reject e s) := by
  rw [reject, blockInv_of_idle (raise_seq e _), raise_csn, raise_trace]
  exact ⟨hcsn, rfl, Nat.zero_le _⟩

/-- A well-formed instruction run while CSN is High ends in the invariant, whether it is rejected, runs to its end, or
a transfer of it fails. -/
theorem blockInv_outcome {i : Instr} (hwf : i.wf = true) {s : State} (hcsn : s.csn = .high) :
    BlockInv (outcome i s) := by
  rcases hplan : planOf s.cfg i with e | ⟨plan, fin⟩
  · rw [outcome_error hplan]
    exact blockInv_reject e hcsn
  · rw [outcome_ok hplan]
    exact blockInv_runActions rfl
      (blockInv_accept hcsn (busPlan_of_planOf hwf hplan) (length_le_maxEvents_of_planOf hwf hplan))

/-- A step that answers keeps the invariant and leaves the block Idle. -/
theorem blockInv_and_idle_of_step {s t : State} (hinv : BlockInv s) (hstep : step s = .next t) :
    BlockInv t ∧ t.seq = .idle := by
  obtain ⟨cmd, k, rest, fin, hseq, rfl⟩ | ⟨hidle, -, rfl⟩ | ⟨r, more, i, hidle, -, hdecode, rfl⟩ := step_cases hstep
  · exact ⟨blockInv_runActions hseq hinv, runActions_seq rest fin s⟩
  · exact ⟨hinv, hidle⟩
  · obtain ⟨hcsn, -, -⟩ := (blockInv_of_idle hidle).mp hinv
    exact ⟨blockInv_outcome (decode_wf hdecode) hcsn, outcome_seq i _⟩

/-- Settles O11: a command in progress is run by moves that keep the invariant, and a command that is accepted starts in
it, since its plan obeys R91 (`BusPlan.actionsOk`) and is short (`length_le_maxEvents_of_planOf`). -/
theorem everyStepKeepsTheInvariant : Obligations.EveryStepKeepsTheInvariant := by
  intro s t hinv hstep
  obtain ⟨hinv', hidle⟩ := blockInv_and_idle_of_step hinv hstep
  exact ⟨hinv', hidle, (blockInv_of_idle hidle).mp hinv'⟩

end Sys2Proof.Machine
end

section
/-! PROOFS. The statements of register access (41_register_access.md R100 to R103): setBit and its laws, and one
register write and one register read as transactions of the host. -/

namespace Sys2Proof.Machine

/-! ## setBit (R102, R103) -/

/-- A bit that already has the value it is forced to is all that setBit leaves as it was. -/
theorem setBit_eq_self_iff (x : Byte) (n : BitPos) (s : Bool) : setBit x n s = x ↔ x.getLsbD n.toNat = s := by
  constructor
  · intro h
    rw [← h, getLsbD_setBit, if_pos rfl]
  · intro h
    apply byte_ext
    intro k
    by_cases hk : k = n <;> simp [getLsbD_setBit, hk, h]

/-- The last write to a bit wins. -/
theorem setBit_setBit_same (x : Byte) (n : BitPos) (a b : Bool) : setBit (setBit x n a) n b = setBit x n b := by
  apply byte_ext
  intro k
  by_cases hk : k = n <;> simp [getLsbD_setBit, hk]

/-- Writes to different bits commute. -/
theorem setBit_comm {n m : BitPos} (h : m ≠ n) (x : Byte) (a b : Bool) :
    setBit (setBit x n a) m b = setBit (setBit x m b) n a := by
  apply byte_ext
  intro k
  by_cases hn : k = n
  · simp [getLsbD_setBit, hn, h.symm]
  · simp [getLsbD_setBit, hn]

/-- Settles O24: each law is read off the bits (`getLsbD_setBit`); setting then clearing is clearing alone. -/
theorem setBitLaws : Obligations.SetBitLaws := by
  intro x n m a b
  refine ⟨?_, fun h => ?_, setBit_setBit_same x n a b, fun h => setBit_comm h x a b, setBit_setBit_same x n true false,
    ?_⟩
  · rw [getLsbD_setBit, if_pos rfl]
  · rw [getLsbD_setBit, if_neg h]
  · rw [setBit_setBit_same, setBit_eq_self_iff]

/-- SET_BIT has no action, so it completes as it is accepted. -/
theorem exec_setBit (s : State) (v : Byte) (n : BitPos) (isSet : Bool) :
    exec (.setBit v n isSet) s =
      .next { s with seq := .idle, trace := [], rspCode := .ok, rspResult := setBit v n isSet } :=
  exec_eq _ s

/-- Settles O23: the answer is `setBit`, whose bits are known. -/
theorem setBitAnswersTheForcedByte : Obligations.SetBitAnswersTheForcedByte := by
  intro s v n isSet
  exact ⟨_, exec_setBit s v n isSet, rfl, rfl, fun m => getLsbD_setBit v n m isSet⟩

/-! ## One register write, one register read (R100, R101) -/

theorem exec_of_planOf_eq_error {i : Instr} {s : State} {e : Exc} (h : planOf s.cfg i = .error e) :
    exec i s = .next (reject e s) := by
  rw [exec_eq, outcome_error h]

theorem planOf_writeRegister_of_lt {cfg : Config} {n : BitVec 3} (a : RegAddr) (data : List Byte)
    (h : cfg.maxWrLen.val < n.toNat) : planOf cfg (.writeRegister a n data) = .error .invalidArgument :=
  if_neg (by rw [writeLenOk_iff]; exact Nat.not_le.mpr h)

theorem planOf_readRegister_of_lt (cfg : Config) {n : BitVec 3} (a : RegAddr) (h : 5 < n.toNat) :
    planOf cfg (.readRegister a n) = .error .invalidArgument :=
  if_neg (by rw [readCountOk_iff]; exact Nat.not_le.mpr h)

/-- Settles O21: the plan is one transaction that discards its replies (`discarding_ran`), or the list is too long. -/
theorem writeRegisterSendsItsBytes : Obligations.WriteRegisterSendsItsBytes := by
  intro s a n data _
  refine ⟨fun hn hholds => ?_, fun hn => ?_⟩
  · obtain ⟨miso, r, c, d, hmiso, hran⟩ := discarding_ran ((BusCommand.wRegister a).byte :: data)
      (accept (.writeRegister a n data) (writePlan a data) .ok s)
    have hexec := exec_of_channelHolds (planOf_writeRegister a data hn) (by rwa [xferCount_writePlan])
    rw [← writePlan_eq] at hran
    rw [hran] at hexec
    exact ⟨_, miso, hexec, hmiso, rfl⟩
  · exact ⟨_, exec_of_planOf_eq_error (planOf_writeRegister_of_lt a data hn), rfl, rfl⟩

/-- Settles O22: the plan is one transaction that reads (`reading_ran`), or the count is too large. -/
theorem readRegisterFillsTheBuffer : Obligations.ReadRegisterFillsTheBuffer := by
  intro s a n
  refine ⟨fun hn hholds => ?_, fun hn => ?_⟩
  · obtain ⟨miso, rb, r, c, d, hmiso, hcaptured, hran⟩ := reading_ran (BusCommand.rRegister a).byte n.toNat hn
      (accept (.readRegister a n) (readPlan s.cfg a n.toNat) .ok s)
    have hexec := exec_of_channelHolds (planOf_readRegister s.cfg a hn) (hholds.mono (xferCount_readPlan_le s.cfg a hn))
    rw [accept_cfg, ← readPlan_eq] at hran
    rw [hran] at hexec
    exact ⟨_, miso, hexec, hmiso, hcaptured, rfl⟩
  · exact ⟨_, exec_of_planOf_eq_error (planOf_readRegister_of_lt s.cfg a hn), rfl, rfl, rfl⟩

end Sys2Proof.Machine
end

section
/-! PROOFS. The statement of register access about the read buffer (41_register_access.md R104, 10_state.md R11): an
instruction writes the slots its plan has replies for, and no other. -/

namespace Sys2Proof.Machine

/-! ## A slot no action stores to -/

/-- The action keeps a reply in this slot of the read buffer. -/
def Action.StoresTo (a : Action) (slot : Fin 6) : Prop := ∃ src, a = .xfer src (some slot)

/-- The slot keeps its value unless the action stores to it. -/
theorem perform_rb_getElem {a : Action} {slot : Fin 6} (h : ¬ a.StoresTo slot) (s : State) :
    (a.perform s).rb[slot] = s.rb[slot] := by
  cases a with
  | xfer src target =>
    cases target with
    | none => rfl
    | some i =>
      have hi : i ≠ slot := fun hi => h ⟨src, by rw [hi]⟩
      simp only [Action.perform, exchange_some_rb, Fin.getElem_fin]
      exact Vector.getElem_set_ne i.isLt slot.isLt (Fin.val_ne_of_ne hi)
  | setLine l v => simp [Action.perform]
  | delay ms => rfl
  | setPayloadWidth w => rfl
  | setLastCfg rx pw => rfl

/-- Nor does running the actions write it, to their end or to a failing transfer (60_exceptions.md R183). -/
theorem runActions_rb_getElem {as : List Action} {slot : Fin 6} (h : ∀ a ∈ as, ¬ a.StoresTo slot) (fin : Finish)
    (s : State) : (runActions as fin s).rb[slot] = s.rb[slot] := by
  induction as generalizing s with
  | nil => rw [runActions, complete_rb]
  | cons a as ih =>
    obtain ⟨ha, has⟩ := List.forall_mem_cons.mp h
    cases hfails : a.fails s with
    | true => rw [runActions_cons_of_fails as fin hfails, complete_rb, setControlLine_rb, useChannel_rb]
    | false => rw [runActions_cons_of_not_fails as fin hfails, ih has, perform_rb_getElem ha]

/-! ## The slots the plans of the block store to -/

@[simp] theorem not_storesTo_setLine (l : Line) (v : Level) (slot : Fin 6) :
    ¬ (Action.setLine l v).StoresTo slot := by simp [Action.StoresTo]

@[simp] theorem not_storesTo_delay (ms : BitVec 32) (slot : Fin 6) : ¬ (Action.delay ms).StoresTo slot := by
  simp [Action.StoresTo]

@[simp] theorem not_storesTo_setPayloadWidth (w : Byte) (slot : Fin 6) :
    ¬ (Action.setPayloadWidth w).StoresTo slot := by simp [Action.StoresTo]

@[simp] theorem not_storesTo_setLastCfg (rx pw : Bool) (slot : Fin 6) :
    ¬ (Action.setLastCfg rx pw).StoresTo slot := by simp [Action.StoresTo]

@[simp] theorem storesTo_xfer_iff (src : ByteSource) (target : Option (Fin 6)) (slot : Fin 6) :
    (Action.xfer src target).StoresTo slot ↔ target = some slot := by simp [Action.StoresTo]

/-- Some action of the list stores to the slot. -/
def StoredBy (as : List Action) (slot : Fin 6) : Prop := ∃ a ∈ as, a.StoresTo slot

section StoredBy

variable (slot : Fin 6)

@[simp] theorem not_storedBy_nil : ¬ StoredBy [] slot := by simp [StoredBy]

@[simp] theorem storedBy_cons (a : Action) (as : List Action) :
    StoredBy (a :: as) slot ↔ a.StoresTo slot ∨ StoredBy as slot := by
  simp [StoredBy]

@[simp] theorem storedBy_append (as bs : List Action) :
    StoredBy (as ++ bs) slot ↔ StoredBy as slot ∨ StoredBy bs slot := by
  simp [StoredBy, or_and_right, exists_or]

@[simp] theorem storedBy_withTransaction (body : List Action) :
    StoredBy (withTransaction body) slot ↔ StoredBy body slot := by
  simp [withTransaction]

@[simp] theorem not_storesTo_send (b : Byte) : ¬ (send b).StoresTo slot := by simp [send]

@[simp] theorem not_storedBy_sends (bytes : List Byte) : ¬ StoredBy (bytes.map send) slot := by
  simp [StoredBy]

@[simp] theorem not_storedBy_writePlan (a : RegAddr) (bytes : List Byte) : ¬ StoredBy (writePlan a bytes) slot := by
  simp [writePlan]

@[simp] theorem not_storedBy_txPayloadPlan (data : List Byte) : ¬ StoredBy (txPayloadPlan data) slot := by
  simp [txPayloadPlan]

@[simp] theorem not_storedBy_flushTxPlan : ¬ StoredBy flushTxPlan slot := by simp [flushTxPlan]

@[simp] theorem not_storedBy_flushRxPlan : ¬ StoredBy flushRxPlan slot := by simp [flushRxPlan]

@[simp] theorem not_storedBy_cePulse (cfg : Config) : ¬ StoredBy (cePulse cfg) slot := by simp [cePulse]

@[simp] theorem not_storedBy_configurePlan (m : ChipMap) (rx pw : Bool) : ¬ StoredBy (configurePlan m rx pw) slot := by
  simp [configurePlan]

@[simp] theorem not_storedBy_clearInterruptsPlan (m : ChipMap) : ¬ StoredBy (clearInterruptsPlan m) slot := by
  simp [clearInterruptsPlan]

variable {slot}

/-- The slots a read fills come in order, so the first `count + 1` are slots 0 to `count` (20_memory.md R42). -/
theorem le_of_mem_take_slots {count : Nat} (h : slot ∈ slots.take (count + 1)) : slot.val ≤ count := by
  obtain ⟨j, hj, rfl⟩ := List.mem_take_iff_getElem.mp h
  have hval : ∀ k (hk : k < slots.length), slots[k].val = k := by decide
  rw [hval]
  omega

/-- A read stores to slots 0 to `count` (R101, 43_payload_io.md R141). -/
theorem le_of_storedBy_readBody {cfg : Config} {cmd : Byte} {count : Nat}
    (h : StoredBy (readBody cfg cmd count) slot) : slot.val ≤ count := by
  have hdummies {l : List (Fin 6)} (hl : ∀ i ∈ l, i ∈ slots.take (count + 1))
      (hstored : StoredBy (l.map fun i => .xfer (.const Config.dummy) (some i)) slot) : slot.val ≤ count := by
    obtain ⟨a, ha, hstores⟩ := hstored
    obtain ⟨i, hi, rfl⟩ := List.mem_map.mp ha
    rw [storesTo_xfer_iff, Option.some.injEq] at hstores
    exact le_of_mem_take_slots (hstores ▸ hl i hi)
  rw [readBody] at h
  split at h
  · obtain hcmd | hrest := (storedBy_cons ..).mp h
    · rw [storesTo_xfer_iff, Option.some.injEq] at hcmd
      simp [← hcmd]
    · exact hdummies (fun i hi => List.mem_of_mem_drop hi) hrest
  · obtain hcmd | hrest := (storedBy_cons ..).mp h
    · exact absurd hcmd (not_storesTo_send slot cmd)
    · exact hdummies (fun i hi => hi) hrest

theorem le_of_storedBy_readPlan {cfg : Config} {a : RegAddr} {count : Nat} (h : StoredBy (readPlan cfg a count) slot) :
    slot.val ≤ count :=
  le_of_storedBy_readBody ((storedBy_withTransaction ..).mp h)

theorem le_of_storedBy_rxPayloadPlan {cfg : Config} {count : Nat} (h : StoredBy (rxPayloadPlan cfg count) slot) :
    slot.val ≤ count :=
  le_of_storedBy_readBody ((storedBy_withTransaction ..).mp h)

end StoredBy

/-- A slot the plan of an instruction stores to is one that R104 and R11 list. -/
theorem mayOverwrite_of_storedBy {cfg : Config} {i : Instr} {plan : List Action} {fin : Finish} {slot : Fin 6}
    (h : planOf cfg i = .ok (plan, fin)) (hstored : StoredBy plan slot) : mayOverwrite i slot := by
  cases i with
  | writeRegister a n data => simp only [planOf] at h; split at h <;> cases h; simp at hstored
  | readRegister a n => simp only [planOf] at h; split at h <;> cases h; exact le_of_storedBy_readPlan hstored
  | setBit v n isSet => cases h; simp at hstored
  | configure rx pw => cases h; simp at hstored
  | enterTx => cases h; simp at hstored
  | enterRx => cases h; simp at hstored
  | setDataRate rate =>
    simp only [planOf] at h
    split at h <;> cases h
    exact le_of_storedBy_readPlan (by simpa [setDataRatePlan] using hstored)
  | configurePipes mask width => cases h; simp at hstored
  | transmit n data => simp only [planOf] at h; split at h <;> cases h; simp at hstored
  | receive n =>
    simp only [planOf] at h
    split at h <;> cases h
    exact le_of_storedBy_rxPayloadPlan (by simpa using hstored)
  | flushTx => cases h; simp at hstored
  | flushRx => cases h; simp at hstored
  | respondIrq => cases h; exact le_of_storedBy_readPlan (by simpa using hstored)
  | clearIrq => cases h; simp at hstored
  | reservedE => cases h
  | reservedF => cases h
  | opcRRegister a count => cases h; exact le_of_storedBy_readPlan hstored
  | opcWRegister a data => cases h; simp at hstored
  | opcWTxPayload data => cases h; simp at hstored
  | opcRRxPayload count => cases h; exact le_of_storedBy_rxPayloadPlan hstored
  | opcFlushTx => cases h; simp at hstored
  | opcFlushRx => cases h; simp at hstored

/-- Settles O25: a rejected instruction stores nothing, and the others store where their plan does. -/
theorem onlyListedCommandsOverwriteTheBuffer : Obligations.OnlyListedCommandsOverwriteTheBuffer := by
  intro i s t slot hexec hkept
  rw [exec_eq] at hexec
  cases hexec
  rcases hplan : planOf s.cfg i with e | ⟨plan, fin⟩
  · rw [outcome_error hplan, reject, raise_rb]
  · rw [outcome_ok hplan]
    exact runActions_rb_getElem (fun a ha hstores => hkept (mayOverwrite_of_storedBy hplan ⟨a, ha, hstores⟩)) fin _

end Sys2Proof.Machine
end

section
/-! PROOFS. The statement of register access about the reference responders (41_register_access.md R105): what a read
finds after a write. -/

namespace Sys2Proof.Machine

namespace Chip

variable (m : ChipMap) (c : Chip)

/-- What the chip answers to a register read, transfer by transfer (20_memory.md R54, R55): the status byte, once more
from the DLR, then the content. -/
def readReplies (labelled : Bool) (st : Byte) (content : List Byte) : List Byte :=
  if labelled then st :: st :: content else st :: content

/-- A register write other than to STATUS puts its bytes over the first bytes of the register (R54). -/
theorem commit_wRegister_of_ne {a : RegAddr} (ha : a ≠ m.addrStatus) (d : List Byte) :
    c.commit m ((BusCommand.wRegister a).byte :: d) =
      { c with regs := c.regs.set a.toFin (storeBytes c.regs[a.toFin] d) } := by
  simp only [commit, busCommand_byte, if_neg ha]

/-- What that register holds afterwards. -/
theorem regs_commit_wRegister_of_ne {a : RegAddr} (ha : a ≠ m.addrStatus) (d : List Byte) :
    (c.commit m ((BusCommand.wRegister a).byte :: d)).regs[a.toFin] = storeBytes c.regs[a.toFin] d := by
  rw [commit_wRegister_of_ne m c ha]
  exact Vector.getElem_set_self a.toFin.isLt

/-- Such a write does not touch the status byte. -/
theorem status_commit_wRegister_of_ne {a : RegAddr} (ha : a ≠ m.addrStatus) (d : List Byte) :
    (c.commit m ((BusCommand.wRegister a).byte :: d)).status m = c.status m := by
  have hne : (a.toFin : Nat) ≠ m.addrStatus.toFin := fun h => ha (BitVec.eq_of_toNat_eq h)
  rw [commit_wRegister_of_ne m c ha]
  simp only [status, Fin.getElem_fin]
  rw [Vector.getElem_set_ne _ _ hne]

/-- Each reply to a read, given that the chip has a status byte. -/
theorem reply_read (labelled : Bool) {st : Byte} (hst : c.status m = some st) (a : RegAddr) (body : List Byte)
    {k : Nat} (hk : k ≤ body.length + 1) :
    c.reply m labelled (((BusCommand.rRegister a).byte :: body).take k) =
      (readReplies labelled st c.regs[a.toFin])[k]? := by
  cases k with
  | zero => cases labelled <;> simp [reply, readReplies, hst]
  | succ k =>
    have hlen : (body.take k).length = k := by rw [List.length_take]; omega
    simp only [List.take_succ_cons, reply, readContent, busCommand_byte, content, hlen]
    cases labelled with
    | false => rfl
    | true => cases k <;> simp [readReplies, hst]

end Chip

section Replies

variable {labelled : Bool} {s : State} {c : Chip}

/-- Where the chip says what it answers, that is the next reply. -/
theorem nextReply_reference {sent : List Byte} (h : s.responder = reference labelled (c.during sent)) {v : Byte}
    (hv : c.reply s.cfg.map labelled sent = some v) : nextReply s = v := by
  have hreply : nextReply s = (c.reply s.cfg.map labelled sent).getD (Config.freeByte s.draws) := by
    rw [nextReply, h]
    cases labelled <;> rfl
  rw [hreply, hv, Option.getD_some]

/-- The replies to a body are the chip's, wherever it says what they are. -/
theorem bodyReplies_reference (l : List (Byte × Option (Fin 6))) {sent : List Byte}
    (h : s.responder = reference labelled (c.during sent)) {k : Nat} (hk : k < l.length) {v : Byte}
    (hv : c.reply s.cfg.map labelled (sent ++ (l.map Prod.fst).take k) = some v) : (bodyReplies l s)[k]? = some v := by
  induction l generalizing s sent k with
  | nil => cases hk
  | cons p l ih =>
    cases k with
    | zero => exact congrArg some (nextReply_reference h (by simpa using hv))
    | succ k =>
      have hnext : (exchange p.1 p.2 s).responder = reference labelled (c.during (sent ++ [p.1])) := by simp [h]
      exact ih hnext (Nat.lt_of_succ_lt_succ hk) (by simpa using hv)

/-- The replies to a register read (R101), whichever of them the build keeps. -/
theorem bodyReplies_readList_reference (capture : Bool) (h : s.responder = reference labelled (c.during [])) {st : Byte}
    (hst : c.status s.cfg.map = some st) (a : RegAddr) {count : Nat} (hcount : count ≤ 5) {k : Nat}
    (hk : k < (readList capture (BusCommand.rRegister a).byte count).length) {v : Byte}
    (hv : (Chip.readReplies labelled st c.regs[a.toFin])[k]? = some v) :
    (bodyReplies (readList capture (BusCommand.rRegister a).byte count) s)[k]? = some v := by
  have hfst := readList_fst capture (BusCommand.rRegister a).byte count hcount
  have hle : k ≤ (dummies capture count).length + 1 := by
    rw [← List.length_map Prod.fst, hfst] at hk
    exact hk.le
  apply bodyReplies_reference _ h hk
  rw [List.nil_append, hfst, Chip.reply_read _ _ _ hst _ _ hle, hv]

/-- What a register read leaves in a slot, where the chip says what it answers. -/
theorem performAll_readPlan_rb_reference (h : s.responder = reference labelled c) (htxn : c.txn = none) {st : Byte}
    (hst : c.status s.cfg.map = some st) (a : RegAddr) {count : Nat} (hcount : count ≤ 5) {i : Fin 6}
    (hi : i.val ≤ count) {v : Byte}
    (hv : (Chip.readReplies labelled st c.regs[a.toFin])[if s.cfg.rdCaptureCmd then i.val else i.val + 1]? = some v) :
    (performAll (readPlan s.cfg a count) s).rb[i] = v := by
  have hopen : (setControlLine .csn .low s).responder = reference labelled (c.during []) := by
    simp [h, Chip.onCsn_low s.cfg.map htxn]
  have hlt : (if s.cfg.rdCaptureCmd then i.val else i.val + 1) <
      (readList s.cfg.rdCaptureCmd (BusCommand.rRegister a).byte count).length := by
    rw [readList_length _ _ _ hcount]
    split <;> omega
  have hreply := bodyReplies_readList_reference s.cfg.rdCaptureCmd hopen hst a hcount hlt hv
  have hcaptured := captured_readList s.cfg (BusCommand.rRegister a).byte count hcount _
    (length_bodyReplies _ (setControlLine .csn .low s)) s.rb i
  rw [if_pos hi, hreply, Option.some.injEq] at hcaptured
  rw [readPlan_eq, performAll_transaction]
  exact hcaptured.symm

/-- writeRegister hands the chip its bytes as one transaction. -/
theorem exec_writeRegister_reference (h : s.responder = reference labelled c) (htxn : c.txn = none)
    (hc : s.cfg.channelCanFault = false) (a : RegAddr) {n : BitVec 3} (hn : n.toNat ≤ s.cfg.maxWrLen.val)
    (data : List Byte) :
    ∃ t, exec (.writeRegister a n data) s = .next t ∧ t.cfg = s.cfg ∧
      t.responder = reference labelled (c.commit s.cfg.map ((BusCommand.wRegister a).byte :: data)) := by
  refine ⟨_, exec_of_channelHolds (planOf_writeRegister a data hn) (.inl hc), ?_, ?_⟩
  · rw [complete_cfg, writePlan_eq, performAll_transaction, accept_cfg]
  · rw [complete_responder, writePlan_eq]
    exact (performAll_transaction_reference (s := accept ..) _ h htxn).trans (by rw [discarded_fst, accept_cfg])

/-- readRegister fills its slots with what the chip answers, where it says. -/
theorem exec_readRegister_reference (h : s.responder = reference labelled c) (htxn : c.txn = none)
    (hc : s.cfg.channelCanFault = false) {st : Byte} (hst : c.status s.cfg.map = some st) (a : RegAddr) {n : BitVec 3}
    (hn : n.toNat ≤ 5) :
    ∃ u, exec (.readRegister a n) s = .next u ∧ ∀ i : Fin 6, i.val ≤ n.toNat → ∀ v,
      (Chip.readReplies labelled st c.regs[a.toFin])[if s.cfg.rdCaptureCmd then i.val else i.val + 1]? = some v →
        u.rb[i] = v := by
  refine ⟨_, exec_of_channelHolds (planOf_readRegister s.cfg a hn) (.inl hc), fun i hi v hv => ?_⟩
  rw [complete_rb]
  exact performAll_readPlan_rb_reference (s := accept (.readRegister a n) (readPlan s.cfg a n.toNat) .ok s)
    h htxn hst a hn hi hv

end Replies

theorem length_of_wf_writeRegister {a : RegAddr} {n : BitVec 3} {data : List Byte}
    (hwf : (Instr.writeRegister a n data).wf = true) (hn : n.toNat ≤ 5) : data.length = n.toNat := by
  have hlen : data.length = dataLen n := by simpa [Instr.wf] using hwf
  rw [hlen, dataLen, Nat.min_eq_left hn]

/-- Settles O43: the write leaves its bytes in the register and the status byte alone, and the read is answered from
those two. -/
theorem writeThenReadRoundTrips : Obligations.WriteThenReadRoundTrips := by
  intro s c a n data st hc hwf _ hn _ htxn ha _ hst labelled hresp
  have hn5 : n.toNat ≤ 5 := by omega
  have hlen := length_of_wf_writeRegister hwf hn5
  obtain ⟨t, hwrite, hcfg, ht⟩ := exec_writeRegister_reference hresp htxn hc a hn data
  obtain ⟨u, hread, hslot⟩ := exec_readRegister_reference ht (by rw [Chip.commit_txn, htxn]) (by rw [hcfg, hc])
    (by rw [hcfg, Chip.status_commit_wRegister_of_ne _ _ ha, hst]) a hn5
  rw [hcfg, Chip.regs_commit_wRegister_of_ne _ _ ha] at hslot
  have hcontent (i : Nat) (hi : i < data.length) : (storeBytes c.regs[a.toFin] data)[i]? = some data[i] := by
    rw [storeBytes, List.getElem?_append_left hi, List.getElem?_eq_getElem hi]
  refine ⟨t, u, hwrite, hread, fun hbuild => ⟨hslot 0 (Nat.zero_le _) st ?_, fun i hi => ?_⟩, fun hbuild i hi => ?_⟩
  · obtain ⟨rfl, hcap⟩ | ⟨rfl, hcap⟩ := hbuild <;> simp [hcap, Chip.readReplies]
  · have hi' : i.val < data.length := hlen ▸ hi
    have hrb : u.rb[i.val + 1] = data[i.val] := hslot i.succ hi _ (by
      obtain ⟨rfl, hcap⟩ | ⟨rfl, hcap⟩ := hbuild <;> simpa [hcap, Chip.readReplies] using hcontent _ hi')
    rw [hrb, List.getElem?_eq_getElem hi']
  · obtain ⟨rfl, hcap⟩ := hbuild
    have hi' : i.val < data.length := hlen ▸ hi
    have hrb : u.rb[i.val] = data[i.val] := hslot i.castSucc hi.le _ (by
      simpa [hcap, Chip.readReplies] using hcontent _ hi')
    rw [hrb, List.getElem?_eq_getElem hi']

end Sys2Proof.Machine
end

section
/-! PROOFS. The statements of the mode controller (42_mode_controller.md R120 to R124): the bits of the two bytes it
composes, and its operations as one or two transactions. -/

namespace Sys2Proof.ChipMap

/-- The positions a well-formed map keeps apart in CONFIG (10_state.md R25). -/
theorem config_positions_of_wf (m : ChipMap) (h : m.wf = true) :
    m.bitEnCrc ≠ m.bitPrimRx ∧ m.bitEnCrc ≠ m.bitPwrUp ∧ m.bitCrco ≠ m.bitPrimRx ∧ m.bitCrco ≠ m.bitPwrUp ∧
      m.bitPrimRx ≠ m.bitPwrUp := by
  simp only [wf, Bool.and_eq_true, decide_eq_true_eq, List.nodup_cons, List.mem_cons, not_or] at h
  obtain ⟨⟨⟨⟨hrxpw, hrxcrco, hrxen, -⟩, ⟨hpwcrco, hpwen, -⟩, -⟩, -⟩, -⟩ := h
  exact ⟨Ne.symm hrxen, Ne.symm hpwen, Ne.symm hrxcrco, Ne.symm hpwcrco, hrxpw⟩

/-- The positions a well-formed map keeps apart in RF_SETUP (10_state.md R25). -/
theorem rate_positions_of_wf (m : ChipMap) (h : m.wf = true) : m.bitRfDrHigh ≠ m.bitRfDrLow := by
  simp only [wf, Bool.and_eq_true, decide_eq_true_eq] at h
  obtain ⟨⟨-, hrate⟩, -⟩ := h
  exact hrate

end Sys2Proof.ChipMap

namespace Sys2Proof.Machine

/-! ## The bytes the mode controller composes (R120, R123) -/

/-- The bits of the CONFIG byte. -/
theorem getLsbD_cfgByte {m : ChipMap} (h : m.wf = true) (rx pw : Bool) (k : BitPos) :
    (cfgByte m rx pw).getLsbD k.toNat =
      if k = m.bitEnCrc ∨ k = m.bitCrco then true
      else if k = m.bitPrimRx then rx else if k = m.bitPwrUp then pw else false := by
  obtain ⟨henrx, henpw, hcrcorx, hcrcopw, hrxpw⟩ := m.config_positions_of_wf h
  rw [cfgByte, getLsbD_setBit, getLsbD_setBit, cfgBaseline, BitVec.getLsbD_or, getLsbD_bitMask, getLsbD_bitMask]
  by_cases hen : k = m.bitEnCrc
  · subst hen; simp [henrx, henpw]
  by_cases hcrco : k = m.bitCrco
  · subst hcrco; simp [hcrcorx, hcrcopw]
  by_cases hrx : k = m.bitPrimRx
  · subst hrx; simp [hen, hcrco, hrxpw]
  · simp [hen, hcrco, hrx]

/-- The bits of the RF_SETUP byte. -/
theorem getLsbD_rateByte {m : ChipMap} (h : m.wf = true) (v : Byte) (lo hi : Bool) (k : BitPos) :
    (rateByte m v lo hi).getLsbD k.toNat =
      if k = m.bitRfDrLow then lo else if k = m.bitRfDrHigh then hi else v.getLsbD k.toNat := by
  rw [rateByte, setBit_comm (m.rate_positions_of_wf h), getLsbD_setBit, getLsbD_setBit]

/-! ## configure, and entering a mode (R120 to R122) -/

/-- A write of one byte to a register, as a part of a command. -/
theorem writeByte_ran (a : RegAddr) (b : Byte) (s : State) :
    ∃ miso r c d, miso.length = 2 ∧
      performAll (writePlan a [b]) s =
        { s with
          csn := .high, trace := s.trace ++ transaction [(BusCommand.wRegister a).byte, b] miso, responder := r,
          chanFaults := c, draws := d } := by
  rw [writePlan_eq]
  exact discarding_ran [(BusCommand.wRegister a).byte, b] s

/-- configure writes the CONFIG byte, and the ghost remembers the call. -/
theorem configurePlan_ran (m : ChipMap) (rx pw : Bool) (s : State) :
    ∃ miso r c d, miso.length = 2 ∧
      performAll (configurePlan m rx pw) s =
        { s with
          csn := .high, lastCfg := some (rx, pw), responder := r, chanFaults := c, draws := d,
          trace := s.trace ++ transaction [(BusCommand.wRegister m.addrConfig).byte, cfgByte m rx pw] miso } := by
  obtain ⟨miso, r, c, d, hmiso, hran⟩ := writeByte_ran m.addrConfig (cfgByte m rx pw) s
  refine ⟨miso, r, c, d, hmiso, ?_⟩
  rw [configurePlan, performAll_append, hran]
  rfl

theorem xferCount_configurePlan (m : ChipMap) (rx pw : Bool) : xferCount (configurePlan m rx pw) = 2 := by
  rw [configurePlan, xferCount_append, xferCount_writePlan]
  rfl

/-- Settles O26: the plan is `configurePlan`, and the bits of its byte are known on a well-formed map. -/
theorem configureWritesTheConfigByte : Obligations.ConfigureWritesTheConfigByte := by
  intro s rx pw hwf hholds
  obtain ⟨miso, r, c, d, hmiso, hran⟩ := configurePlan_ran s.cfg.map rx pw
    (accept (.configure rx pw) (configurePlan s.cfg.map rx pw) .ok s)
  have hexec : exec (.configure rx pw) s = _ :=
    exec_of_channelHolds rfl (by rwa [xferCount_configurePlan])
  rw [hran] at hexec
  exact ⟨_, miso, _, hexec, hmiso, getLsbD_cfgByte hwf rx pw, rfl⟩

/-- A command that configures with the power bit set and then drives CE. -/
theorem exec_entering {i : Instr} {s : State} {rx : Bool} {v : Level}
    (hplan : planOf s.cfg i = .ok (configurePlan s.cfg.map rx true ++ [.setLine .ce v], .ok))
    (h : ChannelHolds s 2) :
    ∃ (t : State) (miso : List Byte), exec i s = .next t ∧ miso.length = 2 ∧
      t = { s with
        ce := v, csn := .high, seq := .idle, rspCode := .ok, rspResult := t.rspResult, lastCfg := some (rx, true),
        trace := transaction [(BusCommand.wRegister s.cfg.map.addrConfig).byte, cfgByte s.cfg.map rx true] miso ++
          [.line .ce v],
        responder := t.responder, chanFaults := t.chanFaults, draws := t.draws } := by
  obtain ⟨miso, r, c, d, hmiso, hran⟩ := configurePlan_ran s.cfg.map rx true
    (accept i (configurePlan s.cfg.map rx true ++ [.setLine .ce v]) .ok s)
  have hexec := exec_of_channelHolds hplan (by rwa [xferCount_append, xferCount_configurePlan])
  rw [performAll_append, hran] at hexec
  exact ⟨_, miso, hexec, hmiso, rfl⟩

/-- Settles O27: both are `exec_entering`, with CE Low and with CE High. -/
theorem enteringAModeDrivesCe : Obligations.EnteringAModeDrivesCe := by
  intro s hholds
  exact ⟨exec_entering rfl hholds, exec_entering rfl hholds⟩

/-! ## setDataRate (R123) -/

theorem planOf_setDataRate_of_rateBits {cfg : Config} {rate : Byte} {lo hi : Bool}
    (h : rateBits rate = some (lo, hi)) : planOf cfg (.setDataRate rate) = .ok (setDataRatePlan cfg lo hi, .ok) := by
  simp only [planOf, h]

theorem planOf_setDataRate_of_none {cfg : Config} {rate : Byte} (h : rateBits rate = none) :
    planOf cfg (.setDataRate rate) = .error .invalidArgument := by
  simp only [planOf, h]

theorem xferCount_setDataRatePlan_le (cfg : Config) (lo hi : Bool) : xferCount (setDataRatePlan cfg lo hi) ≤ 5 := by
  rw [setDataRatePlan, xferCount_append]
  exact Nat.add_le_add_right (xferCount_readPlan_le cfg cfg.map.addrRfSetup (count := 1) (by decide)) 2

/-- setDataRate reads RF_SETUP, and writes the byte it makes of what it read. -/
theorem setDataRatePlan_ran (lo hi : Bool) (s : State) :
    ∃ miso miso' rb r c d, miso.length = (if s.cfg.rdCaptureCmd then 2 else 3) ∧ miso'.length = 2 ∧
      Captured s.cfg 1 miso s.rb rb ∧
      performAll (setDataRatePlan s.cfg lo hi) s =
        { s with
          csn := .high, rb := rb, responder := r, chanFaults := c, draws := d,
          trace := s.trace ++
            transaction ((BusCommand.rRegister s.cfg.map.addrRfSetup).byte :: dummies s.cfg.rdCaptureCmd 1) miso ++
            transaction [(BusCommand.wRegister s.cfg.map.addrRfSetup).byte, rateByte s.cfg.map rb[1] lo hi] miso' } := by
  obtain ⟨miso, rb, r₁, c₁, d₁, hmiso, hcaptured, hread⟩ :=
    reading_ran (BusCommand.rRegister s.cfg.map.addrRfSetup).byte 1 (by decide) s
  rw [← readPlan_eq] at hread
  obtain ⟨miso', r, c, d, hmiso', hwrite⟩ :=
    rateWrite_ran s.cfg.map.addrRfSetup lo hi (performAll (readPlan s.cfg s.cfg.map.addrRfSetup 1) s)
  refine ⟨miso, miso', rb, r, c, d, hmiso, hmiso', hcaptured, ?_⟩
  rw [setDataRatePlan, performAll_append, hwrite, hread]

/-- Settles O28: a legal rate runs `setDataRatePlan`, whose byte has known bits on a well-formed map; any other is
rejected. -/
theorem setDataRateRewritesTheTwoRateBits : Obligations.SetDataRateRewritesTheTwoRateBits := by
  intro s rate lo hi hwf
  refine ⟨fun hrate hholds => ?_, fun h250 h1 h2 => ?_⟩
  · have hplan := planOf_setDataRate_of_rateBits (cfg := s.cfg) ((rateBits_eq_some rate lo hi).mpr hrate)
    obtain ⟨miso, miso', rb, r, c, d, hmiso, hmiso', hcaptured, hran⟩ :=
      setDataRatePlan_ran lo hi (accept (.setDataRate rate) (setDataRatePlan s.cfg lo hi) .ok s)
    have hexec := exec_of_channelHolds hplan (hholds.mono (xferCount_setDataRatePlan_le s.cfg lo hi))
    rw [accept_cfg] at hran
    rw [hran] at hexec
    exact ⟨_, miso, miso', _, hexec, hmiso, hmiso', hcaptured, getLsbD_rateByte hwf rb[1] lo hi, rfl⟩
  · have hplan := planOf_setDataRate_of_none (cfg := s.cfg) ((rateBits_eq_none rate).mpr ⟨h250, h1, h2⟩)
    exact ⟨_, exec_of_planOf_eq_error hplan, rfl, rfl, rfl⟩

/-! ## configurePipes (R124) -/

/-- Settles O29: two register writes of one byte each, then the width is kept. -/
theorem configurePipesWritesMaskThenWidth : Obligations.ConfigurePipesWritesMaskThenWidth := by
  intro s mask width hholds
  have hexec : exec (.configurePipes mask width) s = _ := exec_of_channelHolds rfl hholds
  obtain ⟨miso, r₁, c₁, d₁, hmiso, hmask⟩ := writeByte_ran s.cfg.map.addrEnRxaddr mask (accept ..)
  rw [performAll_append, performAll_append, hmask] at hexec
  obtain ⟨miso', r, c, d, hmiso', hwidth⟩ := writeByte_ran s.cfg.map.addrRxPwP0 width _
  rw [hwidth] at hexec
  exact ⟨_, miso, miso', hexec, hmiso, hmiso', rfl⟩

end Sys2Proof.Machine
end

section
/-! PROOFS. The statements of payload input and output and of the CE controller (43_payload_io.md R140 to R144): the
four commands as one transaction and what stands around it, and the CE and DELAY events of every plan. -/

namespace Sys2Proof.Machine

/-! ## transmit (R140) -/

/-- The pulse leaves CE Low, and adds its three events. -/
theorem performAll_cePulse (cfg : Config) (s : State) :
    performAll (cePulse cfg) s =
      { s with
        ce := .low, trace := s.trace ++ [.line .ce .high, .delay cfg.cePulseDelayMs, .line .ce .low] } := by
  simp [cePulse, Action.perform, setControlLine, delayMs, emit]

theorem xferCount_transmitPlan (cfg : Config) (data : List Byte) :
    xferCount (txPayloadPlan data ++ cePulse cfg) = data.length + 1 := by
  rw [xferCount_append, txPayloadPlan_eq, xferCount_transaction]
  simp [discarded, cePulse, xferCount]

/-- A length outside 1 to 5 fails the argument test (60_exceptions.md R181). -/
theorem not_payloadLenOk {n : BitVec 3} (h : n.toNat < 1 ∨ 5 < n.toNat) : ¬ payloadLenOk n = true := by
  rw [payloadLenOk_iff]
  omega

theorem planOf_transmit_of_badLength (cfg : Config) {n : BitVec 3} (data : List Byte)
    (h : n.toNat < 1 ∨ 5 < n.toNat) : planOf cfg (.transmit n data) = .error .invalidArgument :=
  if_neg (not_payloadLenOk h)

/-- Settles O30: the plan is one transaction that discards its replies (`discarding_ran`) and the pulse, or the length
is out of range. -/
theorem transmitSendsThenPulsesCe : Obligations.TransmitSendsThenPulsesCe := by
  intro s n data _
  refine ⟨fun h1 h5 hholds => ?_, fun hbad => ?_⟩
  · obtain ⟨miso, r, c, d, hmiso, hran⟩ := discarding_ran (BusCommand.wTxPayload.byte :: data)
      (accept (.transmit n data) (txPayloadPlan data ++ cePulse s.cfg) .ok s)
    have hexec := exec_of_channelHolds (planOf_transmit s.cfg data h1 h5) (by rwa [xferCount_transmitPlan])
    rw [← txPayloadPlan_eq] at hran
    rw [performAll_append, hran, performAll_cePulse] at hexec
    exact ⟨_, miso, hexec, hmiso, rfl⟩
  · exact ⟨_, exec_of_planOf_eq_error (planOf_transmit_of_badLength s.cfg data hbad), rfl, rfl, rfl⟩

/-! ## receive (R141) -/

theorem xferCount_receivePlan_le (cfg : Config) {count : Nat} (h : count ≤ 5) :
    xferCount (.setLine .ce .low :: rxPayloadPlan cfg count ++ [.setLine .ce .high]) ≤ count + 2 := by
  rw [xferCount_append, xferCount, rxPayloadPlan_eq, xferCount_transaction, readList_length _ _ _ h]
  split <;> simp [xferCount]

theorem planOf_receive_of_badCount (cfg : Config) {n : BitVec 3} (h : n.toNat < 1 ∨ 5 < n.toNat) :
    planOf cfg (.receive n) = .error .invalidArgument :=
  if_neg (not_payloadLenOk h)

/-- The actions of receive read the payload with CE Low, and leave CE High. -/
theorem receivePlan_ran {count : Nat} (hn : count ≤ 5) (s : State) :
    ∃ miso rb r c d, miso.length = (if s.cfg.rdCaptureCmd then count + 1 else count + 2) ∧
      Captured s.cfg count miso s.rb rb ∧
      performAll (.setLine .ce .low :: rxPayloadPlan s.cfg count ++ [.setLine .ce .high]) s =
        { s with
          ce := .high, csn := .high, rb := rb, responder := r, chanFaults := c, draws := d,
          trace := s.trace ++ [.line .ce .low] ++
            transaction (BusCommand.rRxPayload.byte :: dummies s.cfg.rdCaptureCmd count) miso ++
            [.line .ce .high] } := by
  obtain ⟨miso, rb, r, c, d, hmiso, hcaptured, hran⟩ :=
    reading_ran BusCommand.rRxPayload.byte count hn (setControlLine .ce .low s)
  refine ⟨miso, rb, r, c, d, hmiso, hcaptured, ?_⟩
  rw [setControlLine_cfg, ← rxPayloadPlan_eq] at hran
  rw [List.cons_append, performAll_cons, Action.perform, performAll_append, hran]
  rfl

/-- Settles O31: the plan is one transaction that reads between the two CE drives (`receivePlan_ran`), or the count is
out of range. -/
theorem receiveFillsTheBufferWithCeLow : Obligations.ReceiveFillsTheBufferWithCeLow := by
  intro s n
  refine ⟨fun h1 h5 hholds => ?_, fun hbad => ?_⟩
  · obtain ⟨miso, rb, r, c, d, hmiso, hcaptured, hran⟩ := receivePlan_ran h5 (accept (.receive n)
      (.setLine .ce .low :: rxPayloadPlan s.cfg n.toNat ++ [.setLine .ce .high]) .ok s)
    have hexec := exec_of_channelHolds (planOf_receive s.cfg h1 h5) (hholds.mono (xferCount_receivePlan_le s.cfg h5))
    rw [accept_cfg] at hran
    rw [hran] at hexec
    exact ⟨_, miso, hexec, hmiso, hcaptured, rfl⟩
  · exact ⟨_, exec_of_planOf_eq_error (planOf_receive_of_badCount s.cfg hbad), rfl, rfl, rfl, rfl⟩

/-! ## flushTx, flushRx (R142, R143) -/

/-- A host command that is one transaction of its command byte alone. -/
theorem exec_oneByte {i : Instr} {s : State} {b : Byte}
    (hplan : planOf s.cfg i = .ok (withTransaction (xfers (discarded [b])), .ok)) (h : ChannelHolds s 1) :
    ∃ (t : State) (r : Byte), exec i s = .next t ∧
      t = { s with
        csn := .high, seq := .idle, rspCode := .ok, rspResult := t.rspResult, trace := transaction [b] [r],
        responder := t.responder, chanFaults := t.chanFaults, draws := t.draws } := by
  obtain ⟨miso, r, c, d, hmiso, hran⟩ :=
    discarding_ran [b] (accept i (withTransaction (xfers (discarded [b]))) .ok s)
  obtain ⟨reply, rfl⟩ := List.length_eq_one_iff.mp hmiso
  have hexec := exec_of_channelHolds hplan (by rwa [xferCount_transaction])
  rw [hran] at hexec
  exact ⟨_, reply, hexec, rfl⟩

/-- Settles O32: both are `exec_oneByte`. -/
theorem flushesSendOneByte : Obligations.FlushesSendOneByte := by
  intro s hholds
  exact ⟨exec_oneByte rfl hholds, exec_oneByte rfl hholds⟩

/-! ## The CE and DELAY events of a plan (R144) -/

/-- What an action adds to the CE and DELAY events of a trace. -/
def Action.ceEvents : Action → List Event
  | .setLine .ce v => [.line .ce v]
  | .delay ms => [.delay ms]
  | .setLine .csn _ => []
  | .xfer _ _ => []
  | .setPayloadWidth _ => []
  | .setLastCfg _ _ => []

/-- What some actions add to the CE and DELAY events of a trace, if none of them fails. -/
def planCeEvents (as : List Action) : List Event := as.flatMap Action.ceEvents

@[simp] theorem planCeEvents_nil : planCeEvents [] = [] := rfl

@[simp] theorem planCeEvents_cons (a : Action) (as : List Action) :
    planCeEvents (a :: as) = a.ceEvents ++ planCeEvents as := List.flatMap_cons

@[simp] theorem planCeEvents_append (as bs : List Action) :
    planCeEvents (as ++ bs) = planCeEvents as ++ planCeEvents bs := List.flatMap_append

/-- An action that is performed adds its own CE and DELAY events. -/
theorem ceEvents_perform (s : State) (a : Action) :
    ceEvents (a.perform s).trace = ceEvents s.trace ++ a.ceEvents := by
  cases a with
  | setLine l v => cases l <;> simp [Action.perform, Action.ceEvents, ceEvents]
  | _ => simp [Action.perform, Action.ceEvents, ceEvents]

theorem ceEvents_performAll (as : List Action) (s : State) :
    ceEvents (performAll as s).trace = ceEvents s.trace ++ planCeEvents as := by
  induction as generalizing s with
  | nil => simp
  | cons a as ih => rw [performAll_cons, ih, ceEvents_perform, planCeEvents_cons, List.append_assoc]

/-- The clean-up of a failing transfer (60_exceptions.md R183) drives CSN only. -/
theorem ceEvents_cleanUp (s : State) :
    ceEvents (setControlLine .csn .high (useChannel s)).trace = ceEvents s.trace := by
  simp [ceEvents]

/-- Running actions adds a first part of what they would add if none failed. -/
theorem ceEvents_runActions_prefix (as : List Action) (fin : Finish) (s : State) :
    ceEvents (runActions as fin s).trace <+: ceEvents s.trace ++ planCeEvents as := by
  induction as generalizing s with
  | nil => simp [runActions]
  | cons a as ih =>
    cases hfails : a.fails s with
    | true =>
      rw [runActions_cons_of_fails as fin hfails, complete_trace, ceEvents_cleanUp]
      exact List.prefix_append ..
    | false =>
      rw [runActions_cons_of_not_fails as fin hfails, planCeEvents_cons, ← List.append_assoc, ← ceEvents_perform]
      exact ih _

/-! ## The patterns of R144 are those of the plans -/

@[simp] theorem planCeEvents_xfers (l : List (Byte × Option (Fin 6))) : planCeEvents (xfers l) = [] := by
  induction l with
  | nil => rfl
  | cons p l ih => exact ih

@[simp] theorem planCeEvents_transaction (l : List (Byte × Option (Fin 6))) :
    planCeEvents (withTransaction (xfers l)) = [] := by
  simp [withTransaction, Action.ceEvents]

@[simp] theorem planCeEvents_writePlan (a : RegAddr) (bytes : List Byte) : planCeEvents (writePlan a bytes) = [] := by
  rw [writePlan_eq, planCeEvents_transaction]

@[simp] theorem planCeEvents_readPlan (cfg : Config) (a : RegAddr) (count : Nat) :
    planCeEvents (readPlan cfg a count) = [] := by
  rw [readPlan_eq, planCeEvents_transaction]

@[simp] theorem planCeEvents_txPayloadPlan (data : List Byte) : planCeEvents (txPayloadPlan data) = [] := by
  rw [txPayloadPlan_eq, planCeEvents_transaction]

@[simp] theorem planCeEvents_rxPayloadPlan (cfg : Config) (count : Nat) :
    planCeEvents (rxPayloadPlan cfg count) = [] := by
  rw [rxPayloadPlan_eq, planCeEvents_transaction]

@[simp] theorem planCeEvents_configurePlan (m : ChipMap) (rx pw : Bool) :
    planCeEvents (configurePlan m rx pw) = [] := by
  simp [configurePlan, Action.ceEvents]

@[simp] theorem planCeEvents_clearInterruptsPlan (m : ChipMap) : planCeEvents (clearInterruptsPlan m) = [] := by
  simp [clearInterruptsPlan, flushTxPlan_eq]

@[simp] theorem planCeEvents_setDataRatePlan (cfg : Config) (lo hi : Bool) :
    planCeEvents (setDataRatePlan cfg lo hi) = [] := by
  simp [setDataRatePlan, withTransaction, send, Action.ceEvents]

/-- The plan of an instruction has the pattern R144 gives it. -/
theorem planCeEvents_of_planOf {cfg : Config} {i : Instr} {plan : List Action} {fin : Finish}
    (h : planOf cfg i = .ok (plan, fin)) : planCeEvents plan = cePattern cfg i := by
  cases i with
  | writeRegister a n data => simp only [planOf] at h; split at h <;> cases h; exact planCeEvents_writePlan ..
  | readRegister a n => simp only [planOf] at h; split at h <;> cases h; exact planCeEvents_readPlan ..
  | setBit v n isSet => cases h; rfl
  | configure rx pw => cases h; exact planCeEvents_configurePlan ..
  | enterTx => cases h; simp [Action.ceEvents, cePattern]
  | enterRx => cases h; simp [Action.ceEvents, cePattern]
  | setDataRate rate => simp only [planOf] at h; split at h <;> cases h; exact planCeEvents_setDataRatePlan ..
  | configurePipes mask width => cases h; simp [Action.ceEvents, cePattern]
  | transmit n data =>
    simp only [planOf] at h
    split at h <;> cases h
    simp [cePulse, Action.ceEvents, cePattern]
  | receive n =>
    simp only [planOf] at h
    split at h <;> cases h
    simp [Action.ceEvents, cePattern]
  | flushTx => cases h; rfl
  | flushRx => cases h; rfl
  | respondIrq => cases h; simp [cePattern]
  | clearIrq => cases h; exact planCeEvents_clearInterruptsPlan ..
  | reservedE => cases h
  | reservedF => cases h
  | opcRRegister a count => cases h; exact planCeEvents_readPlan ..
  | opcWRegister a data => cases h; exact planCeEvents_writePlan ..
  | opcWTxPayload data => cases h; exact planCeEvents_txPayloadPlan ..
  | opcRRxPayload count => cases h; exact planCeEvents_rxPayloadPlan ..
  | opcFlushTx => cases h; rfl
  | opcFlushRx => cases h; rfl

/-- An instruction that is rejected has an argument out of range, or is a reserved operation number (60_exceptions.md
R181, R182). -/
theorem badArgument_or_reserved_of_planOf_eq_error {cfg : Config} {i : Instr} {e : Exc} (h : planOf cfg i = .error e) :
    badArgument cfg i ∨ i = .reservedE ∨ i = .reservedF := by
  cases i with
  | writeRegister a n data => exact .inl (Nat.not_le.mp fun hn => by simp [planOf_writeRegister a data hn] at h)
  | readRegister a n => exact .inl (Nat.not_le.mp fun hn => by simp [planOf_readRegister cfg a hn] at h)
  | setDataRate rate =>
    simp only [planOf] at h
    split at h
    · cases h
    · next hrate => exact .inl ((rateBits_eq_none rate).mp hrate)
  | transmit n data => exact .inl fun ⟨h1, h5⟩ => by simp [planOf_transmit cfg data h1 h5] at h
  | receive n => exact .inl fun ⟨h1, h5⟩ => by simp [planOf_receive cfg h1 h5] at h
  | reservedE => exact .inr (.inl rfl)
  | reservedF => exact .inr (.inr rfl)
  | _ => cases h

/-! ## The level of CE (R12) -/

theorem lastCe_append (v : Level) (es fs : List Event) : lastCe v (es ++ fs) = lastCe (lastCe v es) fs := by
  fun_induction lastCe v es <;> simp_all [lastCe]

/-- An action that is performed leaves CE at the level last driven. -/
theorem ce_perform {v : Level} {s : State} (h : s.ce = lastCe v s.trace) (a : Action) :
    (a.perform s).ce = lastCe v (a.perform s).trace := by
  cases a with
  | setLine l w => cases l <;> simp [Action.perform, lastCe_append, lastCe, h]
  | _ => simp [Action.perform, lastCe_append, lastCe, h]

theorem ce_runActions (as : List Action) (fin : Finish) {v : Level} {s : State} (h : s.ce = lastCe v s.trace) :
    (runActions as fin s).ce = lastCe v (runActions as fin s).trace :=
  runActions_keeps (fun s => s.ce = lastCe v s.trace) as fin s h (fun _ h => h) (fun _ a h => ce_perform h a)
    (fun s f h => by rwa [complete_ce, complete_trace])

/-- Settles O33: a rejected instruction emits nothing, and the others emit what their plan says
(`planCeEvents_of_planOf`), to its end or to a failing transfer. -/
theorem ceIsDrivenByFourOperationsOnly : Obligations.CeIsDrivenByFourOperationsOnly := by
  intro i s t hexec
  rw [exec_eq] at hexec
  cases hexec
  rcases hplan : planOf s.cfg i with e | ⟨plan, fin⟩
  · rw [outcome_error hplan, reject, raise_ce, raise_trace]
    refine ⟨rfl, List.nil_prefix, fun _ hgood => ?_⟩
    obtain hbad | rfl | rfl := badArgument_or_reserved_of_planOf_eq_error hplan
    · exact absurd hbad hgood
    · rfl
    · rfl
  · rw [outcome_ok hplan, ← planCeEvents_of_planOf hplan]
    refine ⟨ce_runActions plan fin rfl, ceEvents_runActions_prefix plan fin _, fun hc _ => ?_⟩
    rw [runCommand_eq_complete _ _ _ _ (.inl hc), complete_trace]
    exact ceEvents_performAll plan _

end Sys2Proof.Machine
end

section
/-! PROOFS. The statements of interrupt and status resolution (44_interrupt_status.md R160 to R162): clearInterrupts and
respondToInterrupt as the transactions of their expansion, and what they leave of the DLR's status byte. -/

namespace Sys2Proof.Machine

/-! ## clearInterrupts and respondToInterrupt on the bus (R160, R161) -/

/-- The events of clearInterrupts: a STATUS write of one byte for each flag, then the flush of the TX FIFO (R161). -/
def ClearingEvents (m : ChipMap) (es : List Event) : Prop :=
  ∃ m₁ m₂ m₃ m₄ : List Byte, m₁.length = 2 ∧ m₂.length = 2 ∧ m₃.length = 2 ∧ m₄.length = 1 ∧
    es =
      transaction [(BusCommand.wRegister m.addrStatus).byte, rxDrMask m] m₁ ++
      transaction [(BusCommand.wRegister m.addrStatus).byte, txDsMask m] m₂ ++
      transaction [(BusCommand.wRegister m.addrStatus).byte, maxRtMask m] m₃ ++
      transaction [BusCommand.flushTx.byte] m₄

/-- clearInterrupts adds those events and leaves CSN High; the block's other elements keep their values. -/
theorem clearInterruptsPlan_ran (m : ChipMap) (s : State) :
    ∃ es r c d, ClearingEvents m es ∧
      performAll (clearInterruptsPlan m) s =
        { s with csn := .high, trace := s.trace ++ es, responder := r, chanFaults := c, draws := d } := by
  rw [clearInterruptsPlan, flushTxPlan_eq, performAll_append, performAll_append, performAll_append]
  obtain ⟨m₁, r₁, c₁, d₁, hm₁, hrxDr⟩ := writeByte_ran m.addrStatus (rxDrMask m) s
  rw [hrxDr]
  obtain ⟨m₂, r₂, c₂, d₂, hm₂, htxDs⟩ := writeByte_ran m.addrStatus (txDsMask m) _
  rw [htxDs]
  obtain ⟨m₃, r₃, c₃, d₃, hm₃, hmaxRt⟩ := writeByte_ran m.addrStatus (maxRtMask m) _
  rw [hmaxRt]
  obtain ⟨m₄, r, c, d, hm₄, hflush⟩ := discarding_ran [BusCommand.flushTx.byte] _
  rw [hflush]
  refine ⟨_, r, c, d, ⟨m₁, m₂, m₃, m₄, hm₁, hm₂, hm₃, hm₄, rfl⟩, ?_⟩
  simp only [List.append_assoc]

/-- Settles O34: the plan is `clearInterruptsPlan`, run from an empty trace. -/
theorem clearInterruptsWritesThreeFlagsThenFlushes : Obligations.ClearInterruptsWritesThreeFlagsThenFlushes := by
  intro s hholds
  have hexec : exec .clearIrq s = _ := exec_of_channelHolds rfl (by rwa [xferCount_clearInterruptsPlan])
  obtain ⟨es, r, c, d, ⟨m₁, m₂, m₃, m₄, hm₁, hm₂, hm₃, hm₄, rfl⟩, hran⟩ := clearInterruptsPlan_ran s.cfg.map
    (accept .clearIrq (clearInterruptsPlan s.cfg.map) .ok s)
  rw [hran] at hexec
  exact ⟨_, m₁, m₂, m₃, m₄, hexec, hm₁, hm₂, hm₃, hm₄, rfl⟩

/-- The actions of respondToInterrupt (R160). -/
def respondIrqPlan (cfg : Config) : List Action := readPlan cfg cfg.map.addrStatus 1 ++ clearInterruptsPlan cfg.map

theorem planOf_respondIrq (cfg : Config) : planOf cfg .respondIrq = .ok (respondIrqPlan cfg, .okSlot 0) := rfl

theorem xferCount_respondIrqPlan_le (cfg : Config) : xferCount (respondIrqPlan cfg) ≤ 10 := by
  rw [respondIrqPlan, xferCount_append, xferCount_clearInterruptsPlan]
  exact Nat.add_le_add_right (xferCount_readPlan_le cfg cfg.map.addrStatus (count := 1) (by decide)) 7

/-- respondToInterrupt reads STATUS into the buffer, then does what clearInterrupts does. -/
theorem respondIrqPlan_ran (s : State) :
    ∃ m₀ es rb r c d, m₀.length = (if s.cfg.rdCaptureCmd then 2 else 3) ∧ ClearingEvents s.cfg.map es ∧
      Captured s.cfg 1 m₀ s.rb rb ∧
      performAll (respondIrqPlan s.cfg) s =
        { s with
          csn := .high, rb := rb, responder := r, chanFaults := c, draws := d,
          trace := s.trace ++
            transaction ((BusCommand.rRegister s.cfg.map.addrStatus).byte :: dummies s.cfg.rdCaptureCmd 1) m₀ ++
            es } := by
  obtain ⟨m₀, rb, r₀, c₀, d₀, hm₀, hcaptured, hread⟩ :=
    reading_ran (BusCommand.rRegister s.cfg.map.addrStatus).byte 1 (by decide) s
  rw [← readPlan_eq] at hread
  obtain ⟨es, r, c, d, hes, hclear⟩ :=
    clearInterruptsPlan_ran s.cfg.map (performAll (readPlan s.cfg s.cfg.map.addrStatus 1) s)
  refine ⟨m₀, es, rb, r, c, d, hm₀, hes, hcaptured, ?_⟩
  rw [respondIrqPlan, performAll_append, hclear, hread]

/-- Settles O35: the plan is `respondIrqPlan`, run from an empty trace, and the answer is slot 0. -/
theorem respondToInterruptReadsThenClears : Obligations.RespondToInterruptReadsThenClears := by
  intro s hholds
  have hexec := exec_of_channelHolds (planOf_respondIrq s.cfg) (hholds.mono (xferCount_respondIrqPlan_le s.cfg))
  obtain ⟨m₀, es, rb, r, c, d, hm₀, ⟨m₁, m₂, m₃, m₄, hm₁, hm₂, hm₃, hm₄, rfl⟩, hcaptured, hran⟩ :=
    respondIrqPlan_ran (accept .respondIrq (respondIrqPlan s.cfg) (.okSlot 0) s)
  rw [accept_cfg] at hran
  rw [hran] at hexec
  refine ⟨_, m₀, m₁, m₂, m₃, m₄, hexec, hm₀, hm₁, hm₂, hm₃, hm₄, hcaptured, ?_⟩
  simp only [← List.append_assoc]
  rfl

/-! ## What a STATUS write does to the status byte (20_memory.md R46, R54) -/

namespace Chip

variable (m : ChipMap) (c : Chip)

theorem commit_rRegister (a : RegAddr) (d : List Byte) : c.commit m ((BusCommand.rRegister a).byte :: d) = c := by
  simp only [commit, busCommand_byte]

/-- A STATUS write clears flags by its first data byte. -/
theorem status_commit_wRegister_status {st : Byte} (hst : c.status m = some st) (b : Byte) (d : List Byte) :
    (c.commit m ((BusCommand.wRegister m.addrStatus).byte :: b :: d)).status m = some (clearFlags m st b) := by
  obtain ⟨rest, hreg⟩ := List.head?_eq_some_iff.mp hst
  simp only [commit, busCommand_byte, if_true, hreg, storeStatus, status]
  exact congrArg List.head? (Vector.getElem_set_self m.addrStatus.toFin.isLt)

/-- The DLR's first three replies to a STATUS read are the status byte: twice as the status it labels, then as the
content asked for (R54). -/
theorem readReplies_status {st : Byte} (hst : c.status m = some st) {k : Nat} (hk : k ≤ 2) :
    (readReplies true st c.regs[m.addrStatus.toFin])[k]? = some st := by
  obtain ⟨rest, hreg⟩ := List.head?_eq_some_iff.mp hst
  have hcases : k = 0 ∨ k = 1 ∨ k = 2 := by omega
  obtain rfl | rfl | rfl := hcases <;> simp [readReplies, hreg]

end Chip

/-- A reference responder between two transactions, whose chip has this status byte. -/
def HasStatus (labelled : Bool) (m : ChipMap) (st : Byte) (r : Responder) : Prop :=
  ∃ c, r = reference labelled c ∧ c.txn = none ∧ c.status m = some st

@[simp] theorem performAll_cfg (as : List Action) (s : State) : (performAll as s).cfg = s.cfg := by
  induction as generalizing s with
  | nil => rfl
  | cons a as ih => rw [performAll_cons, ih, perform_cfg]

section Status

variable {labelled : Bool} {m : ChipMap} {s : State} {st : Byte}

theorem hasStatus_performAll_statusWrite (hm : s.cfg.map = m) (h : HasStatus labelled m st s.responder) (b : Byte) :
    HasStatus labelled m (clearFlags m st b) (performAll (writePlan m.addrStatus [b]) s).responder := by
  obtain ⟨c, hc, htxn, hst⟩ := h
  subst hm
  rw [writePlan_eq, performAll_transaction_reference _ hc htxn, discarded_fst]
  exact ⟨_, rfl, (Chip.commit_txn ..).trans htxn, Chip.status_commit_wRegister_status _ c hst b []⟩

theorem hasStatus_performAll_flushTxPlan (h : HasStatus labelled m st s.responder) :
    HasStatus labelled m st (performAll flushTxPlan s).responder := by
  obtain ⟨c, hc, htxn, hst⟩ := h
  exact ⟨_, performAll_flushTxPlan_reference hc htxn, htxn, hst⟩

theorem hasStatus_performAll_readPlan (h : HasStatus labelled m st s.responder) (cfg : Config) (a : RegAddr)
    {count : Nat} (hcount : count ≤ 5) :
    HasStatus labelled m st (performAll (readPlan cfg a count) s).responder := by
  obtain ⟨c, hc, htxn, hst⟩ := h
  rw [readPlan_eq, performAll_transaction_reference _ hc htxn, readList_fst _ _ _ hcount, Chip.commit_rRegister]
  exact ⟨c, rfl, htxn, hst⟩

/-! ## What clearInterrupts leaves of the status byte (R161, R162) -/

/-- The status byte after the three STATUS writes. -/
def clearedStatus (m : ChipMap) (st : Byte) : Byte :=
  clearFlags m (clearFlags m (clearFlags m st (rxDrMask m)) (txDsMask m)) (maxRtMask m)

/-- The three flags are 0, and every other bit is as it was. -/
theorem getLsbD_clearedStatus (m : ChipMap) (st : Byte) (k : BitPos) :
    (clearedStatus m st).getLsbD k.toNat =
      if k = m.bitRxDr ∨ k = m.bitTxDs ∨ k = m.bitMaxRt then false else st.getLsbD k.toNat := by
  simp only [clearedStatus, getLsbD_clearFlags, rxDrMask, txDsMask, maxRtMask, getLsbD_bitMask]
  by_cases hrxDr : k = m.bitRxDr
  · simp [hrxDr]
  by_cases htxDs : k = m.bitTxDs
  · simp [htxDs]
  by_cases hmaxRt : k = m.bitMaxRt
  · simp [hmaxRt]
  · simp [hrxDr, htxDs, hmaxRt]

theorem hasStatus_performAll_clearInterruptsPlan (hm : s.cfg.map = m) (h : HasStatus labelled m st s.responder) :
    HasStatus labelled m (clearedStatus m st) (performAll (clearInterruptsPlan m) s).responder := by
  have hrxDr := hasStatus_performAll_statusWrite hm h (rxDrMask m)
  have htxDs := hasStatus_performAll_statusWrite (by rw [performAll_cfg, hm]) hrxDr (txDsMask m)
  have hmaxRt := hasStatus_performAll_statusWrite (by rw [performAll_cfg, performAll_cfg, hm]) htxDs (maxRtMask m)
  simp only [clearInterruptsPlan, performAll_append]
  exact hasStatus_performAll_flushTxPlan hmaxRt

end Status

/-- Against the DLR, respondToInterrupt answers the status byte, and leaves it with the flags cleared. -/
theorem exec_respondIrq_dlr {s : State} {st : Byte} (hc : s.cfg.channelCanFault = false)
    (h : HasStatus true s.cfg.map st s.responder) :
    ∃ t, exec .respondIrq s = .next t ∧ t.cfg = s.cfg ∧ t.rspResult = st ∧
      HasStatus true s.cfg.map (clearedStatus s.cfg.map st) t.responder := by
  refine ⟨_, exec_of_channelHolds (planOf_respondIrq s.cfg) (.inl hc), ?_, ?_, ?_⟩
  · rw [complete_cfg, performAll_cfg, accept_cfg]
  · obtain ⟨c, hresp, htxn, hst⟩ := h
    rw [complete_okSlot_rspResult, respondIrqPlan, performAll_append, performAll_clearInterruptsPlan_rb]
    refine performAll_readPlan_rb_reference (s := accept ..) hresp htxn hst s.cfg.map.addrStatus (by decide)
      (Nat.zero_le 1) (Chip.readReplies_status _ c hst ?_)
    split <;> decide
  · rw [complete_responder, respondIrqPlan, performAll_append]
    exact hasStatus_performAll_clearInterruptsPlan (by rw [performAll_cfg, accept_cfg])
      (hasStatus_performAll_readPlan (s := accept ..) h s.cfg s.cfg.map.addrStatus (by decide))

/-- Against the DLR, a STATUS read of one byte leaves the status byte in slots 0 and 1, whichever replies the build
keeps (41_register_access.md R101). -/
theorem exec_readRegister_status_dlr {s : State} {st : Byte} (hc : s.cfg.channelCanFault = false)
    (h : HasStatus true s.cfg.map st s.responder) :
    ∃ u, exec (.readRegister s.cfg.map.addrStatus 1) s = .next u ∧ ∀ i : Fin 2, u.rb[i.val] = st := by
  obtain ⟨c, hresp, htxn, hst⟩ := h
  obtain ⟨u, hexec, hslot⟩ :=
    exec_readRegister_reference hresp htxn hc hst s.cfg.map.addrStatus (n := 1) (by decide)
  refine ⟨u, hexec, fun i => ?_⟩
  have hi : i.val ≤ 1 := Nat.le_of_lt_succ i.isLt
  have hreply : (if s.cfg.rdCaptureCmd then i.val else i.val + 1) ≤ 2 := by split <;> omega
  exact hslot (i.castLE (by decide)) hi st (Chip.readReplies_status _ c hst hreply)

/-- Settles O44: the byte answered is read before the flags are cleared (`exec_respondIrq_dlr`), and the later read
finds the cleared byte, whose bits are known. -/
theorem respondToInterruptReportsThenClearsFlags : Obligations.RespondToInterruptReportsThenClearsFlags := by
  intro s c st hc hresp htxn hst
  obtain ⟨t, hrespond, hcfg, hresult, hcleared⟩ := exec_respondIrq_dlr hc ⟨c, hresp, htxn, hst⟩
  rw [← hcfg] at hcleared
  obtain ⟨u, hread, hslots⟩ := exec_readRegister_status_dlr (hcfg ▸ hc) hcleared
  rw [hcfg] at hread hslots
  refine ⟨t, u, hrespond, hresult, hread, fun i k => ?_⟩
  rw [hslots i]
  exact getLsbD_clearedStatus s.cfg.map st k

end Sys2Proof.Machine
end

section
/-! PROOFS. The statements of the exceptions (60_exceptions.md R180 to R190): which commands are rejected, and what the
first failing transfer leaves of a command. -/

namespace Sys2Proof.Machine

/-! ## Every command is answered (R189, R190), and the two reserved operation numbers (R182) -/

/-- Settles O9: there is an outcome, and it is Idle. -/
theorem everyInstructionAnswers : Obligations.EveryInstructionAnswers :=
  fun i s => ⟨outcome i s, exec_eq i s, outcome_seq i s⟩

theorem planOf_decodeHost_of_reserved (cfg : Config) {w : HostWord}
    (h : w.extractLsb' 60 4 = 0xE#4 ∨ w.extractLsb' 60 4 = 0xF#4) :
    planOf cfg (decodeHost w) = .error .invalidOpcode := by
  rcases h with h | h
  · have hdecode : decodeHost w = .reservedE := by simp [decodeHost, HostWord.op, h]
    rw [hdecode, planOf]
  · have hdecode : decodeHost w = .reservedF := by simp [decodeHost, HostWord.op, h]
    rw [hdecode, planOf]

/-- Settles O18: InvalidOpcode writes the code alone, and a step on such a word raises it. -/
theorem reservedOpcodeChangesOnlyTheCode : Obligations.ReservedOpcodeChangesOnlyTheCode := by
  refine ⟨fun s => ⟨exec_eq .reservedE s, exec_eq .reservedF s⟩, fun s w more hseq hpending hop => ?_⟩
  have hplan := planOf_decodeHost_of_reserved s.cfg hop
  rw [step_of_decode_ok hseq hpending rfl, outcome_error (s := { s with pending := more }) hplan]
  simp only [reject, raise, hseq]

/-! ## The codes a command can end with (R180) -/

/-- An argument out of range is what InvalidArgument is raised for (R181). -/
theorem planOf_eq_invalidArgument_iff (cfg : Config) (i : Instr) :
    planOf cfg i = .error .invalidArgument ↔ badArgument cfg i := by
  constructor
  · intro h
    obtain hbad | rfl | rfl := badArgument_or_reserved_of_planOf_eq_error h
    · exact hbad
    · cases h
    · cases h
  · intro h
    cases i with
    | writeRegister a n data => exact planOf_writeRegister_of_lt a data h
    | readRegister a n => exact planOf_readRegister_of_lt cfg a h
    | setDataRate rate => exact planOf_setDataRate_of_none ((rateBits_eq_none rate).mpr h)
    | transmit n data => exact if_neg (mt (payloadLenOk_iff n).mp h)
    | receive n => exact if_neg (mt (payloadLenOk_iff n).mp h)
    | _ => cases h

/-- No command is rejected with ChannelFault. -/
theorem planOf_ne_channelFault (cfg : Config) (i : Instr) : planOf cfg i ≠ .error .channelFault := by
  fun_cases planOf cfg i <;> simp

/-- A host command that runs to its last action returns, with code 0. -/
theorem complete_rspCode_of_planOf {cfg : Config} {i : Instr} {plan : List Action} {fin : Finish}
    (h : planOf cfg i = .ok (plan, fin)) (hhost : isHostCommand i = true) (s : State) :
    (complete fin s).rspCode = .ok := by
  cases fin with
  | bus => exact absurd rfl (finish_ne_bus_of_isHostCommand h hhost)
  | channelFault => fun_cases planOf cfg i <;> simp_all [planOf]
  | _ => rfl

/-! ## A failing transfer (R183) -/

/-- What a transfer that fails in `s` leaves: the clean-up is performed and code 2 delivered. -/
def faultEnd (s : State) : State := complete .channelFault (setControlLine .csn .high (useChannel s))

@[simp] theorem faultEnd_rb (s : State) : (faultEnd s).rb = s.rb := rfl

@[simp] theorem faultEnd_csn (s : State) : (faultEnd s).csn = .high := rfl

@[simp] theorem faultEnd_rspCode (s : State) : (faultEnd s).rspCode = .channelFault := rfl

@[simp] theorem faultEnd_payloadWidth (s : State) : (faultEnd s).payloadWidth = s.payloadWidth := rfl

@[simp] theorem faultEnd_lastCfg (s : State) : (faultEnd s).lastCfg = s.lastCfg := rfl

@[simp] theorem faultEnd_trace (s : State) : (faultEnd s).trace = s.trace ++ [.line .csn .high] := rfl

@[simp] theorem faultEnd_chanFaults (s : State) :
    (faultEnd s).chanFaults = if s.cfg.channelCanFault then s.chanFaults.tail else s.chanFaults := rfl

/-- Running the first of two parts of a plan: a transfer of it is the first to fail, or it is performed and the second
part runs. -/
theorem runActions_append_cases (as bs : List Action) (fin : Finish) (s : State) :
    (∃ pre src slot post, as = pre ++ .xfer src slot :: post ∧
      runActions (as ++ bs) fin s = faultEnd (performAll pre s)) ∨
    runActions (as ++ bs) fin s = runActions bs fin (performAll as s) := by
  induction as generalizing s with
  | nil => exact .inr rfl
  | cons a as ih =>
    cases hfails : a.fails s with
    | true =>
      obtain ⟨src, slot, rfl⟩ := eq_xfer_of_fails hfails
      exact .inl ⟨[], src, slot, as, rfl, runActions_cons_of_fails (as ++ bs) fin hfails⟩
    | false =>
      rw [List.cons_append, runActions_cons_of_not_fails _ fin hfails]
      obtain ⟨pre, src, slot, post, rfl, hrun⟩ | hrun := ih (a.perform s)
      · exact .inl ⟨a :: pre, src, slot, post, rfl, hrun⟩
      · exact .inr hrun

/-- A plan is run to its end, or ends in ChannelFault. -/
theorem runActions_rspCode (as : List Action) (fin : Finish) (s : State) :
    (runActions as fin s).rspCode = .channelFault ∨ runActions as fin s = complete fin (performAll as s) := by
  obtain ⟨pre, src, slot, post, -, hrun⟩ | hrun := runActions_append_cases as [] fin s
  · rw [List.append_nil] at hrun
    exact .inl (hrun ▸ faultEnd_rspCode _)
  · rw [List.append_nil] at hrun
    exact .inr hrun

/-- Settles O17: an instruction is rejected exactly as R181 lists, and a host command that runs ends with code 0 or
2. -/
theorem invalidArgumentExactlyWhenListed : Obligations.InvalidArgumentExactlyWhenListed := by
  intro i s
  refine ⟨fun hbad => ?_, fun hgood hhost => ⟨outcome i s, exec_eq i s, ?_⟩⟩
  · exact ⟨_, exec_of_planOf_eq_error ((planOf_eq_invalidArgument_iff s.cfg i).mpr hbad), rfl⟩
  · rcases hplan : planOf s.cfg i with e | ⟨plan, fin⟩
    · rw [outcome_error hplan]
      cases e with
      | invalidArgument => exact absurd ((planOf_eq_invalidArgument_iff s.cfg i).mp hplan) hgood
      | channelFault => exact absurd hplan (planOf_ne_channelFault s.cfg i)
      | invalidOpcode => exact RspCode.noConfusion
    · rw [outcome_ok hplan]
      obtain hcode | hrun := runActions_rspCode plan fin (accept i plan fin s)
      · rw [runCommand, hcode]
        exact RspCode.noConfusion
      · rw [runCommand, hrun, complete_rspCode_of_planOf hplan hhost]
        exact RspCode.noConfusion

/-! ## What a fault does to CE (R183, consequences) -/

theorem channelHolds_zero (s : State) : ChannelHolds s 0 := .inr ⟨s.chanFaults, rfl⟩

/-- A command ends with code 2 only by a failing transfer, and so inside the part of its plan that has the transfers. -/
theorem exists_failing_of_rspCode {body tail : List Action} {s : State} (htail : xferCount tail = 0)
    (hcode : (runActions (body ++ tail) .ok s).rspCode = .channelFault) :
    ∃ pre src slot post, body = pre ++ .xfer src slot :: post ∧
      runActions (body ++ tail) .ok s = faultEnd (performAll pre s) := by
  obtain hfault | hrun := runActions_append_cases body tail .ok s
  · exact hfault
  · rw [hrun, runActions_eq_complete _ _ _ (htail ▸ channelHolds_zero _)] at hcode
    cases hcode

/-- The level CE is left at is read off the CE and DELAY events. -/
theorem lastCe_ceEvents (v : Level) (es : List Event) : lastCe v (ceEvents es) = lastCe v es := by
  fun_induction lastCe v es <;> simp_all [lastCe, ceEvents]

/-- A command that ends in ChannelFault has emitted the CE and DELAY events of what stands before the transactions of
its plan (`lead`), and none of those after them. -/
theorem ce_of_channelFault {i : Instr} {s t : State} {lead body tail : List Action}
    (hplan : planOf s.cfg i = .ok (lead ++ (body ++ tail), .ok)) (hlead : xferCount lead = 0)
    (hbody : planCeEvents body = []) (htail : xferCount tail = 0) (hcode : t.rspCode = .channelFault)
    (hexec : exec i s = .next t) :
    t.ce = lastCe s.ce (planCeEvents lead) ∧ ceEvents t.trace = planCeEvents lead := by
  have hevents : ceEvents t.trace = planCeEvents lead := by
    rw [exec_eq, outcome_ok hplan, runCommand, runActions_append _ _ _ _ (hlead ▸ channelHolds_zero _)] at hexec
    cases hexec
    obtain ⟨pre, src, slot, post, rfl, hrun⟩ := exists_failing_of_rspCode htail hcode
    rw [planCeEvents_append, List.append_eq_nil_iff] at hbody
    obtain ⟨hpre, -⟩ := hbody
    rw [hrun, faultEnd, complete_trace, ceEvents_cleanUp, ceEvents_performAll, ceEvents_performAll, hpre]
    exact List.append_nil _
  obtain ⟨hce, -⟩ := ceIsDrivenByFourOperationsOnly i s t hexec
  exact ⟨by rw [hce, ← lastCe_ceEvents, hevents], hevents⟩

/-- A command that is rejected for its argument does not end with code 2. -/
theorem not_badArgument_of_channelFault {i : Instr} {s t : State} (hcode : t.rspCode = .channelFault)
    (hexec : exec i s = .next t) : ¬ badArgument s.cfg i := by
  intro hbad
  rw [exec_of_planOf_eq_error ((planOf_eq_invalidArgument_iff s.cfg i).mpr hbad)] at hexec
  cases hexec
  cases hcode

/-- Settles O20: each plan has its one transaction between the drives named, so a fault leaves what stands before it
(`ce_of_channelFault`). -/
theorem channelFaultSkipsTheCeDrive : Obligations.ChannelFaultSkipsTheCeDrive := by
  intro s t hcode
  refine ⟨fun n hexec => ?_, fun n data hexec => ?_, fun hexec => ?_, fun hexec => ?_⟩
  · obtain ⟨h1, h5⟩ := not_not.mp (not_badArgument_of_channelFault hcode hexec)
    obtain ⟨hce, -⟩ := ce_of_channelFault (lead := [.setLine .ce .low]) (planOf_receive s.cfg h1 h5) rfl
      (planCeEvents_rxPayloadPlan ..) rfl hcode hexec
    exact hce
  · obtain ⟨h1, h5⟩ := not_not.mp (not_badArgument_of_channelFault hcode hexec)
    exact ce_of_channelFault (lead := []) (planOf_transmit s.cfg data h1 h5) rfl (planCeEvents_txPayloadPlan ..) rfl
      hcode hexec
  · exact ce_of_channelFault (lead := []) rfl rfl (planCeEvents_configurePlan ..) rfl hcode hexec
  · exact ce_of_channelFault (lead := []) rfl rfl (planCeEvents_configurePlan ..) rfl hcode hexec

end Sys2Proof.Machine
end

section
/-! PROOFS. The statement of the exceptions about the channel (60_exceptions.md R183): the first failing transfer cuts a
command short of the run in which no transfer fails. -/

namespace Sys2Proof.Machine

/-! ## What performed actions keep -/

/-- What each action of a list keeps, performing the list keeps. -/
theorem performAll_keeps (P : State → Prop) {as : List Action} {s : State} (h : P s)
    (hact : ∀ a ∈ as, ∀ t, P t → P (a.perform t)) : P (performAll as s) := by
  induction as generalizing s with
  | nil => exact h
  | cons a as ih =>
    obtain ⟨ha, has⟩ := List.forall_mem_cons.mp hact
    exact ih (ha s h) has

/-- Only the two actions that are no events write `payload_width` and the ghost. -/
theorem performAll_of_events {as : List Action} (h : ∀ a ∈ as, a.isEvent = true) (s : State) :
    (performAll as s).payloadWidth = s.payloadWidth ∧ (performAll as s).lastCfg = s.lastCfg := by
  refine performAll_keeps (fun t => t.payloadWidth = s.payloadWidth ∧ t.lastCfg = s.lastCfg) ⟨rfl, rfl⟩
    fun a ha t ht => ?_
  cases a with
  | setPayloadWidth w => cases h _ ha
  | setLastCfg rx pw => cases h _ ha
  | _ => simpa [Action.perform] using ht

theorem performAll_rb_getElem {as : List Action} {slot : Fin 6} (h : ¬ StoredBy as slot) (s : State) :
    (performAll as s).rb[slot] = s.rb[slot] :=
  performAll_keeps (fun t => t.rb[slot] = s.rb[slot]) rfl fun a ha t ht =>
    (perform_rb_getElem (fun hstores => h ⟨a, ha, hstores⟩) t).trans ht

theorem trace_prefix_performAll (as : List Action) (s : State) : s.trace <+: (performAll as s).trace := by
  refine performAll_keeps (fun t => s.trace <+: t.trace) (List.prefix_refl _) fun a _ t ht => ?_
  cases hevent : a.isEvent with
  | true =>
    obtain ⟨e, he⟩ := perform_trace_of_isEvent t hevent
    exact he ▸ ht.trans (List.prefix_append ..)
  | false => exact (perform_trace_of_not_isEvent t hevent).symm ▸ ht

/-- Where the channel can fail, each transfer takes an entry off the list of failures. -/
theorem performAll_chanFaults {s : State} (hc : s.cfg.channelCanFault = true) (as : List Action) :
    (performAll as s).chanFaults = s.chanFaults.drop (xferCount as) := by
  induction as generalizing s with
  | nil => rfl
  | cons a as ih =>
    rw [performAll_cons, ih (by rwa [perform_cfg]), ← List.singleton_append, xferCount_append, ← List.drop_drop]
    obtain ⟨src, slot, rfl⟩ | ha := eq_xfer_or_xferCount_eq_zero a
    · simp [Action.perform, hc, xferCount]
    · rw [perform_chanFaults_of_not_xfer s a ha, ha, List.drop_zero]

/-! ## The first failing transfer -/

/-- Transfer `j` of a plan, and what stands before and after it. -/
theorem exists_transfer {as : List Action} {j : Nat} (h : j < xferCount as) :
    ∃ pre src slot post, as = pre ++ .xfer src slot :: post ∧ xferCount pre = j := by
  induction as generalizing j with
  | nil => cases h
  | cons a as ih =>
    rw [← List.singleton_append, xferCount_append] at h
    have hcons {k : Nat} (hk : k < xferCount as) :
        ∃ pre src slot post, a :: as = pre ++ .xfer src slot :: post ∧ xferCount pre = xferCount [a] + k := by
      obtain ⟨pre, src, slot, post, rfl, hpre⟩ := ih hk
      exact ⟨a :: pre, src, slot, post, rfl, by rw [← List.singleton_append, xferCount_append, hpre]⟩
    obtain ⟨src, slot, rfl⟩ | ha := eq_xfer_or_xferCount_eq_zero a
    · cases j with
      | zero => exact ⟨[], src, slot, as, rfl, rfl⟩
      | succ j =>
        have hk : j < xferCount as := by simp only [xferCount] at h; omega
        rw [Nat.add_comm j 1]
        exact hcons hk
    · rw [ha, Nat.zero_add] at h
      rw [← Nat.zero_add j, ← ha]
      exact hcons h

/-- The actions before the first failing transfer are performed, and the command ends there. -/
theorem runActions_of_first_fault {pre post : List Action} {src : ByteSource} {slot : Option (Fin 6)} {fin : Finish}
    {s : State} {more : List Bool} (hc : s.cfg.channelCanFault = true)
    (hfaults : s.chanFaults = List.replicate (xferCount pre) false ++ true :: more) :
    runActions (pre ++ .xfer src slot :: post) fin s = faultEnd (performAll pre s) ∧
      (faultEnd (performAll pre s)).chanFaults = more := by
  have hleft : (performAll pre s).chanFaults = true :: more := by
    rw [performAll_chanFaults hc, hfaults, List.drop_left' List.length_replicate]
  have hfails : Action.fails (performAll pre s) (.xfer src slot) = true := by
    simp [Action.fails, transferFails, hleft, hc]
  constructor
  · rw [runActions_append _ _ _ _ (.inr ⟨_, hfaults⟩), runActions_cons_of_fails _ _ hfails, faultEnd]
  · simp [hleft, hc]

/-! ## The same run where the channel cannot fail -/

/-- The state with another channel. -/
def State.withChannel (canFault : Bool) (faults : List Bool) (s : State) : State :=
  { s with cfg := { s.cfg with channelCanFault := canFault }, chanFaults := faults }

/-- The actions of an instruction do not depend on whether the channel can fail. -/
theorem planOf_withChannel (cfg : Config) (canFault : Bool) (i : Instr) :
    planOf { cfg with channelCanFault := canFault } i = planOf cfg i := by
  cases i <;> rfl

theorem perform_withChannel (canFault : Bool) (faults : List Bool) (a : Action) (s : State) :
    ∃ faults', a.perform (s.withChannel canFault faults) = (a.perform s).withChannel canFault faults' := by
  rcases a with ⟨_ | _, v⟩ | ⟨_ | _, _ | _⟩ | ms | w | ⟨rx, pw⟩ <;> exact ⟨_, rfl⟩

/-- Actions that are performed do the same on any channel. -/
theorem performAll_withChannel (canFault : Bool) (faults : List Bool) (as : List Action) (s : State) :
    ∃ faults', performAll as (s.withChannel canFault faults) = (performAll as s).withChannel canFault faults' := by
  induction as generalizing s faults with
  | nil => exact ⟨faults, rfl⟩
  | cons a as ih =>
    obtain ⟨faults', hperform⟩ := perform_withChannel canFault faults a s
    rw [performAll_cons, hperform]
    exact ih faults' (a.perform s)

/-- What an instruction emits and stores where the channel cannot fail is what its actions do here. -/
theorem exec_faultless {i : Instr} {s t : State} {plan : List Action} {fin : Finish}
    (hplan : planOf s.cfg i = .ok (plan, fin))
    (hexec : exec i { s with cfg := { s.cfg with channelCanFault := false } } = .next t) :
    t.trace = (performAll plan (accept i plan fin s)).trace ∧ t.rb = (performAll plan (accept i plan fin s)).rb := by
  obtain ⟨faults, hall⟩ := performAll_withChannel false s.chanFaults plan (accept i plan fin s)
  have ht := exec_of_channelCanFault_eq_false (s := s.withChannel false s.chanFaults) rfl
    ((planOf_withChannel s.cfg false i).trans hplan) hexec
  have hrun : t = complete fin ((performAll plan (accept i plan fin s)).withChannel false faults) :=
    ht.trans (congrArg (complete fin) hall)
  rw [hrun, complete_trace, complete_rb]
  exact ⟨rfl, rfl⟩

/-! ## The order in which the slots are written (20_memory.md R42) -/

/-- The number of the transfer of a read whose reply goes to the slot (41_register_access.md R101). -/
def replyIndex (cfg : Config) (slot : Fin 6) : Nat := if cfg.rdCaptureCmd then slot.val else slot.val + 1

/-- Each slot the actions store to gets the reply of the transfer with its number, `k` being that of the next one. -/
def StoresInOrder (cfg : Config) : Nat → List Action → Prop
  | _, [] => True
  | k, a :: as => (∀ slot, a.StoresTo slot → replyIndex cfg slot = k) ∧ StoresInOrder cfg (k + xferCount [a]) as

section StoresInOrder

variable {cfg : Config} {k : Nat} {as bs : List Action} {slot : Fin 6}

theorem storesInOrder_append :
    StoresInOrder cfg k (as ++ bs) ↔ StoresInOrder cfg k as ∧ StoresInOrder cfg (k + xferCount as) bs := by
  induction as generalizing k with
  | nil => simp [StoresInOrder, xferCount]
  | cons a as ih =>
    have hcount : xferCount (a :: as) = xferCount [a] + xferCount as := xferCount_append [a] as
    rw [List.cons_append, StoresInOrder, StoresInOrder, ih, hcount, Nat.add_assoc, and_assoc]

theorem storesInOrder_of_not_storedBy (h : ∀ slot, ¬ StoredBy as slot) : StoresInOrder cfg k as := by
  induction as generalizing k with
  | nil => trivial
  | cons a as ih =>
    have hcons (slot : Fin 6) := not_or.mp (mt (storedBy_cons slot a as).mpr (h slot))
    exact ⟨fun slot hstores => absurd hstores (hcons slot).left, ih fun slot => (hcons slot).right⟩

/-- The slots stored to are those of the transfers from `k` on. -/
theorem StoresInOrder.replyIndex_mem (h : StoresInOrder cfg k as) (hstored : StoredBy as slot) :
    k ≤ replyIndex cfg slot ∧ replyIndex cfg slot < k + xferCount as := by
  induction as generalizing k with
  | nil => exact absurd hstored (not_storedBy_nil slot)
  | cons a as ih =>
    have hcount : xferCount (a :: as) = xferCount [a] + xferCount as := xferCount_append [a] as
    obtain ⟨hfirst, hrest⟩ := h
    obtain hstores | hstored := (storedBy_cons slot a as).mp hstored
    · have hindex := hfirst slot hstores
      obtain ⟨src, rfl⟩ := hstores
      have hone : xferCount [Action.xfer src (some slot)] = 1 := rfl
      omega
    · have hindex := ih hrest hstored
      omega

/-- Dummies whose replies go to consecutive slots. -/
theorem storesInOrder_dummies {l : List (Fin 6)}
    (h : ∀ p (hp : p < l.length), replyIndex cfg l[p] = k + p) :
    StoresInOrder cfg k (l.map fun i => .xfer (.const Config.dummy) (some i)) := by
  induction l generalizing k with
  | nil => trivial
  | cons i l ih =>
    refine ⟨fun slot hstores => ?_, ih fun p hp => ?_⟩
    · rw [storesTo_xfer_iff, Option.some.injEq] at hstores
      exact hstores ▸ h 0 (Nat.zero_lt_succ _)
    · have hnext := h (p + 1) (Nat.succ_lt_succ hp)
      rw [List.getElem_cons_succ] at hnext
      simp only [xferCount]
      omega

theorem val_getElem_slots : ∀ p (hp : p < slots.length), slots[p].val = p := by decide

theorem storesInOrder_readBody (cfg : Config) (cmd : Byte) (count : Nat) :
    StoresInOrder cfg 0 (readBody cfg cmd count) := by
  rw [readBody]
  split
  case isTrue hcapture =>
    refine ⟨fun slot hstores => ?_, storesInOrder_dummies fun p hp => ?_⟩
    · rw [storesTo_xfer_iff, Option.some.injEq] at hstores
      simp [← hstores, replyIndex, hcapture]
    · simp [replyIndex, hcapture, val_getElem_slots, xferCount, Nat.add_comm]
  case isFalse hcapture =>
    refine ⟨fun slot hstores => absurd hstores (not_storesTo_send slot cmd), storesInOrder_dummies fun p hp => ?_⟩
    simp [replyIndex, hcapture, val_getElem_slots, xferCount, send, Nat.add_comm]

end StoresInOrder

/-! ## The plans of the block -/

/-- Actions that R183 can cut off at any transfer: they write neither `payload_width` nor the ghost, and the read buffer
in order. -/
structure Cuttable (cfg : Config) (as : List Action) : Prop where
  events : ∀ a ∈ as, a.isEvent = true
  inOrder : StoresInOrder cfg 0 as

namespace Cuttable

variable {cfg : Config} {as bs : List Action}

theorem of_not_storedBy (hevents : ∀ a ∈ as, a.isEvent = true) (h : ∀ slot, ¬ StoredBy as slot) : Cuttable cfg as :=
  ⟨hevents, storesInOrder_of_not_storedBy h⟩

/-- Events that store nothing may follow. -/
theorem append (h : Cuttable cfg as) (hevents : ∀ a ∈ bs, a.isEvent = true) (hbs : ∀ slot, ¬ StoredBy bs slot) :
    Cuttable cfg (as ++ bs) :=
  ⟨List.forall_mem_append.mpr ⟨h.events, hevents⟩,
    storesInOrder_append.mpr ⟨h.inOrder, storesInOrder_of_not_storedBy hbs⟩⟩

/-- A line may be driven first. -/
theorem cons_setLine (l : Line) (v : Level) (h : Cuttable cfg as) : Cuttable cfg (.setLine l v :: as) :=
  ⟨List.forall_mem_cons.mpr ⟨rfl, h.events⟩, fun slot hstores => absurd hstores (not_storesTo_setLine l v slot),
    h.inOrder⟩

theorem readBody (cfg : Config) (cmd : Byte) (count : Nat) :
    Cuttable cfg (withTransaction (readBody cfg cmd count)) := by
  have hevents := isEvent_of_mem_transaction (readList cfg.rdCaptureCmd cmd count)
  rw [← readBody_eq] at hevents
  refine ⟨hevents, ?_⟩
  have hbody : StoresInOrder cfg 0 (.setLine .csn .low :: Machine.readBody cfg cmd count) :=
    ⟨fun slot hstores => absurd hstores (not_storesTo_setLine _ _ slot), storesInOrder_readBody cfg cmd count⟩
  exact storesInOrder_append.mpr ⟨hbody, storesInOrder_of_not_storedBy (by simp)⟩

end Cuttable

/-! The plans that store no reply. -/

theorem isEvent_of_mem_writePlan (a : RegAddr) (bytes : List Byte) : ∀ x ∈ writePlan a bytes, x.isEvent = true :=
  writePlan_eq a bytes ▸ isEvent_of_mem_transaction _

theorem isEvent_of_mem_clearInterruptsPlan (m : ChipMap) : ∀ x ∈ clearInterruptsPlan m, x.isEvent = true := by
  simp only [clearInterruptsPlan, List.forall_mem_append]
  exact ⟨⟨⟨isEvent_of_mem_writePlan _ _, isEvent_of_mem_writePlan _ _⟩, isEvent_of_mem_writePlan _ _⟩,
    isEvent_of_mem_transaction (discarded [_])⟩

namespace Cuttable

variable {cfg : Config}

theorem writePlan (a : RegAddr) (bytes : List Byte) : Cuttable cfg (writePlan a bytes) :=
  .of_not_storedBy (isEvent_of_mem_writePlan a bytes) (by simp)

theorem txPayloadPlan (data : List Byte) : Cuttable cfg (txPayloadPlan data) :=
  .of_not_storedBy (txPayloadPlan_eq data ▸ isEvent_of_mem_transaction _) (by simp)

theorem flushTxPlan : Cuttable cfg flushTxPlan :=
  .of_not_storedBy (isEvent_of_mem_transaction (discarded [_])) (by simp)

theorem flushRxPlan : Cuttable cfg flushRxPlan :=
  .of_not_storedBy (isEvent_of_mem_transaction (discarded [_])) (by simp)

theorem clearInterruptsPlan (m : ChipMap) : Cuttable cfg (clearInterruptsPlan m) :=
  .of_not_storedBy (isEvent_of_mem_clearInterruptsPlan m) (by simp)

theorem setDataRatePlan (cfg : Config) (lo hi : Bool) : Cuttable cfg (setDataRatePlan cfg lo hi) :=
  (readBody ..).append (by simp [withTransaction, send, Action.isEvent]) (by simp)

end Cuttable

/-- What an instruction runs: actions that can be cut off, then at most writes and drives that no transfer follows. -/
theorem exists_cuttable_of_planOf {cfg : Config} {i : Instr} {plan : List Action} {fin : Finish}
    (h : planOf cfg i = .ok (plan, fin)) :
    ∃ body tail, plan = body ++ tail ∧ Cuttable cfg body ∧ xferCount tail = 0 := by
  have hall (hplan : Cuttable cfg plan) : ∃ body tail, plan = body ++ tail ∧ Cuttable cfg body ∧ xferCount tail = 0 :=
    ⟨plan, [], (List.append_nil plan).symm, hplan, rfl⟩
  cases i with
  | writeRegister a n data => simp only [planOf] at h; split at h <;> cases h; exact hall (.writePlan ..)
  | readRegister a n => simp only [planOf] at h; split at h <;> cases h; exact hall (.readBody ..)
  | setBit v n isSet => cases h; exact hall (.of_not_storedBy (List.forall_mem_nil _) not_storedBy_nil)
  | configure rx pw => cases h; exact ⟨_, [_], rfl, .writePlan .., rfl⟩
  | enterTx => cases h; exact ⟨_, [_, _], List.append_assoc .., .writePlan .., rfl⟩
  | enterRx => cases h; exact ⟨_, [_, _], List.append_assoc .., .writePlan .., rfl⟩
  | setDataRate rate => simp only [planOf] at h; split at h <;> cases h; exact hall (.setDataRatePlan ..)
  | configurePipes mask width =>
    cases h
    exact ⟨_, [_], rfl, (Cuttable.writePlan ..).append (isEvent_of_mem_writePlan _ _) (by simp), rfl⟩
  | transmit n data =>
    simp only [planOf] at h
    split at h <;> cases h
    exact ⟨_, cePulse cfg, rfl, .txPayloadPlan data, rfl⟩
  | receive n =>
    simp only [planOf] at h
    split at h <;> cases h
    exact ⟨_, [_], rfl, (Cuttable.readBody ..).cons_setLine .., rfl⟩
  | flushTx => cases h; exact hall .flushTxPlan
  | flushRx => cases h; exact hall .flushRxPlan
  | respondIrq =>
    cases h
    exact hall ((Cuttable.readBody ..).append (isEvent_of_mem_clearInterruptsPlan _) (by simp))
  | clearIrq => cases h; exact hall (.clearInterruptsPlan _)
  | reservedE => cases h
  | reservedF => cases h
  | opcRRegister a count => cases h; exact hall (.readBody ..)
  | opcWRegister a data => cases h; exact hall (.writePlan ..)
  | opcWTxPayload data => cases h; exact hall (.txPayloadPlan data)
  | opcRRxPayload count => cases h; exact hall (.readBody ..)
  | opcFlushTx => cases h; exact hall .flushTxPlan
  | opcFlushRx => cases h; exact hall .flushRxPlan

/-- Actions among which there is no transfer store nothing. -/
theorem not_storedBy_of_xferCount_eq_zero {as : List Action} (h : xferCount as = 0) (slot : Fin 6) :
    ¬ StoredBy as slot := by
  rintro ⟨a, ha, src, rfl⟩
  obtain ⟨pre, post, rfl⟩ := List.append_of_mem ha
  rw [xferCount_append] at h
  cases h

/-! ## The run up to the failing transfer -/

/-- The plan of an instruction, cut at its transfer `j`: nothing before it writes `payload_width` or the ghost, and of
the slots stored to, exactly those with a lower number are stored to before it. -/
theorem exists_cut_of_planOf {cfg : Config} {i : Instr} {plan : List Action} {fin : Finish} {j : Nat}
    (h : planOf cfg i = .ok (plan, fin)) (hj : j < xferCount plan) :
    ∃ pre src slot post, plan = pre ++ .xfer src slot :: post ∧ xferCount pre = j ∧
      (∀ a ∈ pre, a.isEvent = true) ∧ (∀ slot', StoredBy pre slot' → replyIndex cfg slot' < j) ∧
      ∀ slot', StoredBy (.xfer src slot :: post) slot' → j ≤ replyIndex cfg slot' := by
  obtain ⟨body, tail, rfl, hbody, htail⟩ := exists_cuttable_of_planOf h
  rw [xferCount_append, htail, Nat.add_zero] at hj
  obtain ⟨pre, src, slot, post, rfl, rfl⟩ := exists_transfer hj
  obtain ⟨hevents, -⟩ := List.forall_mem_append.mp hbody.events
  have hinOrder := storesInOrder_append.mpr
    ⟨hbody.inOrder, storesInOrder_of_not_storedBy (not_storedBy_of_xferCount_eq_zero htail)⟩
  rw [List.append_assoc, storesInOrder_append, Nat.zero_add] at hinOrder
  obtain ⟨hpre, hrest⟩ := hinOrder
  refine ⟨pre, src, slot, post ++ tail, List.append_assoc .., rfl, hevents, fun slot' hstored => ?_,
    fun slot' hstored => ?_⟩
  · obtain ⟨-, hlt⟩ := hpre.replyIndex_mem hstored
    rwa [Nat.zero_add] at hlt
  · exact (hrest.replyIndex_mem hstored).left

/-- What follows a transfer only adds to the trace, after the event of that transfer. -/
theorem exists_trace_performAll_xfer (src : ByteSource) (slot : Option (Fin 6)) (post : List Action) (s : State) :
    ∃ after, (performAll (.xfer src slot :: post) s).trace =
      s.trace ++ .xfer (src.value s) (nextReply s) :: after := by
  obtain ⟨after, hafter⟩ := trace_prefix_performAll post (Action.perform s (.xfer src slot))
  refine ⟨after, ?_⟩
  rw [performAll_cons, ← hafter, Action.perform, exchange_trace, List.append_assoc]
  rfl

/-- Without CHANNEL_CAN_FAULT no host command ends with code 2. -/
theorem rspCode_ne_channelFault {i : Instr} {s t : State} (hc : s.cfg.channelCanFault = false)
    (hhost : isHostCommand i = true) (hexec : exec i s = .next t) : t.rspCode ≠ .channelFault := by
  rcases hplan : planOf s.cfg i with e | ⟨plan, fin⟩
  · rw [exec_of_planOf_eq_error hplan] at hexec
    cases hexec
    cases e with
    | channelFault => exact absurd hplan (planOf_ne_channelFault s.cfg i)
    | _ => exact RspCode.noConfusion
  · rw [exec_of_channelCanFault_eq_false hc hplan hexec, complete_rspCode_of_planOf hplan hhost]
    exact RspCode.noConfusion

/-- The clean-up leaves CE as the events before it left it. -/
theorem ce_of_outcome_eq_faultEnd {i : Instr} {s u : State} (h : outcome i s = faultEnd u) :
    (faultEnd u).ce = lastCe s.ce u.trace := by
  obtain ⟨hce, -⟩ := ceIsDrivenByFourOperationsOnly i s _ (exec_eq i s)
  rw [← h, hce, h, faultEnd_trace, lastCe_append]
  rfl

/-- Settles O19: the plan is cut at the failing transfer (`exists_cut_of_planOf`). The actions before it are performed
in both runs, and the run without the fault performs the others after them. -/
theorem channelFaultEndsTheCommand : Obligations.ChannelFaultEndsTheCommand := by
  refine ⟨fun i s t hc hhost hexec => rspCode_ne_channelFault hc hhost hexec,
    fun i s t₀ j more _ hc hfaults hexec₀ hj => ?_⟩
  rcases hplan : planOf s.cfg i with e | ⟨plan, fin⟩
  · have hreject := exec_of_planOf_eq_error (s := s.withChannel false s.chanFaults)
      ((planOf_withChannel s.cfg false i).trans hplan)
    cases hreject.symm.trans hexec₀
    rw [reject, raise_trace] at hj
    cases hj
  obtain ⟨htrace₀, hrb₀⟩ := exec_faultless hplan hexec₀
  rw [htrace₀, length_transfers_performAll, accept_trace] at hj
  obtain ⟨pre, src, slot, post, rfl, rfl, hevents, hbefore, hafter⟩ :=
    exists_cut_of_planOf hplan (by simpa [transfers] using hj)
  let start := accept i (pre ++ .xfer src slot :: post) fin s
  let u := performAll pre start
  obtain ⟨hrun, hmore⟩ := runActions_of_first_fault (s := start) (src := src) (slot := slot) (post := post)
    (fin := fin) hc hfaults
  have hout : outcome i s = faultEnd u := (outcome_ok hplan).trans hrun
  obtain ⟨after, htail⟩ := exists_trace_performAll_xfer src slot post u
  obtain ⟨hwidth, hlast⟩ := performAll_of_events hevents start
  obtain ⟨hcfg, haddr, hcache, hpending⟩ := outcome_inert i s
  rw [hout] at hcfg haddr hcache hpending
  rw [performAll_append] at htrace₀ hrb₀
  refine ⟨faultEnd u, u.trace, after, src.value u, nextReply u, by rw [exec_eq, hout], htrace₀.trans htail, ?_,
    faultEnd_trace u, rfl, complete_seq _ _, rfl, ce_of_outcome_eq_faultEnd hout, hwidth, hlast, hcfg, haddr, hcache,
    hpending, hmore, fun slot' => ⟨fun ⟨_, hindex⟩ => ?_, fun hnot => ?_⟩⟩
  · rw [length_transfers_performAll]
    exact Nat.zero_add _
  · rw [hrb₀, faultEnd_rb]
    exact (performAll_rb_getElem (fun hstored => Nat.not_lt.mpr (hafter slot' hstored) hindex) u).symm
  · have hkept : ¬ StoredBy pre slot' := fun hstored => hnot
      ⟨mayOverwrite_of_storedBy hplan ((storedBy_append ..).mpr (.inl hstored)), hbefore slot' hstored⟩
    exact performAll_rb_getElem hkept _

end Sys2Proof.Machine
end

section
/-! PROOFS. The statement of the reset event (70_reset_and_hazards.md R210): the block goes to its reset values, and the
chip keeps its own. -/

namespace Sys2Proof.Machine

/-- What the reset does to a document-labelled chip: an open transaction is abandoned, and nothing else changes. -/
theorem assertReset_responder_of_dlr {s : State} {c : Chip} (h : s.responder = .dlr c) :
    (assertReset s).responder = .dlr { c with txn := none } := by
  simp only [assertReset, h, Responder.abandon]

/-- Settles O16: the elements of the block are those of `State.reset` (`resetValues`), the trace and the build are
carried over, and the chip loses at most an open transaction (`assertReset_responder_of_dlr`). -/
theorem resetEventAbandonsTheCommand : Obligations.ResetEventAbandonsTheCommand := by
  intro s
  obtain ⟨hseq, hcsn, hce, hcode, hlast, -⟩ := resetValues
  exact ⟨hseq, hcsn, hce, hcode, hlast, rfl, rfl, fun _ hdlr => ⟨_, assertReset_responder_of_dlr hdlr, rfl, rfl, rfl⟩⟩

end Sys2Proof.Machine
end
